-- ==== Sys2Proof/Word.lean ====
section
/-! DEFINITION. The words of the CORE: bytes, 16-bit words, and the field widths of an instruction (00_scope.md section 4; 30_encoding.md R91). -/

namespace Sys2Proof

/-- `u8`: a register value, a memory byte, an 8-bit immediate. -/
abbrev Byte := BitVec 8

/-- `u16`: an instruction word, `I`, `PC`, a return address. -/
abbrev Word := BitVec 16

/-- `u4`: the index of a general register (`X`, `Y`), of a key, or the count `N`. -/
abbrev Nibble := BitVec 4

/-- `u12`: the address operand `NNN`. -/
abbrev Addr := BitVec 12

end Sys2Proof
end

