-- ==== Sys2Proof/Config.lean ====
section
/-! DEFINITION. What an implementation fixes (00_scope.md R6) and the free values (R7): the types of the open parameters, the quirk record, and the opaque constants. -/

namespace Sys2Proof

/-- `P_FONT_BASE`, 0x000 or 0x050 (20_memory.md R66, D30). -/
inductive FontBase where
  | at000
  | at050
  deriving DecidableEq, Repr

/-- `P_SCROLL_UP`: absent, `00BN` or `00DN` (44_display.md R226, D22). -/
inductive ScrollUp where
  | absent
  | bN
  | dN
  deriving DecidableEq, Repr

/-- `P_DXY0_BASE`: what DXY0 does with the extension off (44_display.md R224, D18). -/
inductive Dxy0Base where
  | noop
  | zeroRows
  deriving DecidableEq, Repr

/-- The three framebuffer shapes (10_state.md R36). -/
inductive Resolution where
  | r64x32
  | r64x64
  | r128x64
  deriving DecidableEq, Repr

/-- The preset selector (10_state.md R46). -/
inductive Preset where
  | chip8
  | schip
  deriving DecidableEq, Repr

/-- The five quirks by name (10_state.md R40). -/
inductive QuirkField where
  | shiftUsesVy
  | jumpUsesVx
  | blockTransferAdvancesI
  | resetFlagOnBitwiseOp
  | extendedInstructionSet
  deriving DecidableEq, Repr

/-- `QCFG`, the record of five Boolean fields (10_state.md R40 to R45). -/
structure Quirks where
  shiftUsesVy : Bool
  jumpUsesVx : Bool
  blockTransferAdvancesI : Bool
  resetFlagOnBitwiseOp : Bool
  extendedInstructionSet : Bool
  deriving DecidableEq, Repr

/-- The open parameters of 00_scope.md R6. They stand in `State` and no operation changes them, so a
statement about every state speaks of every parameter value. -/
structure Params where
  /-- `P_STACK_CAP`. -/
  stackCap : Nat
  /-- `P_FONT_BASE`. -/
  fontBase : FontBase
  /-- `P_HI_FONT`; its length is `P_HI_FONT_LEN`. -/
  hiFont : List Byte
  /-- `P_SCROLL_UP`. -/
  scrollUp : ScrollUp
  /-- `P_DXY0_BASE`. -/
  dxy0Base : Dxy0Base
  /-- `P_INIT_RES`. -/
  initRes : Resolution
  /-- `P_CPU_HZ`, read by no rule of the CORE (D44). DESIGN CHOICE (log 7): a whole number of Steps per second;
  the spec says only a positive rate. -/
  cpuHz : Nat
  deriving DecidableEq, Repr

/-- The ranges 00_scope.md R6 gives the parameters. -/
structure Params.Valid (p : Params) : Prop where
  stackCap : 16 ≤ p.stackCap
  hiFontNonempty : 0 < p.hiFont.length
  hiFontShort : p.hiFont.length ≤ 512
  cpuHz : 0 < p.cpuHz

namespace Config

/-- The free byte of the `n`-th CXNN (00_scope.md R7; 41_alu.md R153; D29, D50). Nothing constrains it; log 8. -/
opaque rnd : Nat → BitVec 8

/-- The byte at offset `k` of the high-resolution glyph table that `State.reset` holds: the spec gives no bytes (20_memory.md R68, D31); log 3. -/
opaque hiFontByte : Nat → BitVec 8

end Config

end Sys2Proof
end

