-- ==== Sys2Proof/Machine/Parameters.lean ====
section
/-! DEFINITION. What the parameter and quirk names stand for, and the parameter values that `State.reset` holds. -/

namespace Sys2Proof

/-- The address of `P_FONT_BASE` (20_memory.md R66). -/
def FontBase.address : FontBase → Nat
  | .at000 => 0x000
  | .at050 => 0x050

/-- The value of op[15:4] that selects SCU, if any (30_encoding.md R94 item 4). -/
def ScrollUp.pattern : ScrollUp → Option (BitVec 12)
  | .absent => none
  | .bN => some 0x00B
  | .dN => some 0x00D

/-- `W` (10_state.md R36). -/
def Resolution.width : Resolution → Nat
  | .r64x32 => 64
  | .r64x64 => 64
  | .r128x64 => 128

/-- `H` (10_state.md R36). -/
def Resolution.height : Resolution → Nat
  | .r64x32 => 32
  | .r64x64 => 64
  | .r128x64 => 64

/-- The preset columns of the table of 10_state.md R40 (R46, D36). -/
def Quirks.ofPreset : Preset → Quirks
  | .chip8 => ⟨false, false, false, true, false⟩
  | .schip => ⟨true, true, true, false, true⟩

/-- `SetQuirk`'s write of one field (10_state.md R46). -/
def Quirks.write (q : Quirks) (b : Bool) : QuirkField → Quirks
  | .shiftUsesVy => { q with shiftUsesVy := b }
  | .jumpUsesVx => { q with jumpUsesVx := b }
  | .blockTransferAdvancesI => { q with blockTransferAdvancesI := b }
  | .resetFlagOnBitwiseOp => { q with resetFlagOnBitwiseOp := b }
  | .extendedInstructionSet => { q with extendedInstructionSet := b }

/-- The register view of `QCFG`: bits 0 to 4 in the order of 10_state.md R40, bits 7:5 read 0. -/
def Quirks.toByte (q : Quirks) : Byte :=
  0#3 ++ BitVec.ofBool q.extendedInstructionSet ++ BitVec.ofBool q.resetFlagOnBitwiseOp ++
    BitVec.ofBool q.blockTransferAdvancesI ++ BitVec.ofBool q.jumpUsesVx ++ BitVec.ofBool q.shiftUsesVy

/-- `QCFG` written as a register: writes to bits 7:5 are ignored (10_state.md R40). -/
def Quirks.ofByte (b : Byte) : Quirks :=
  ⟨b.getLsbD 0, b.getLsbD 1, b.getLsbD 2, b.getLsbD 3, b.getLsbD 4⟩

/-- The preset `ResetAll` selects, `P_DEFAULT_PRESET` (00_scope.md R6; 70_reset_and_hazards.md R291, D35). -/
def defaultPreset : Preset := .chip8

/-- The rate of the timer schedule: Ticks in one second of wall-clock time (00_scope.md R5; 70_reset_and_hazards.md R302). -/
def ticksPerSecond : Nat := 60

/-- DESIGN CHOICE (logs 1 to 7): the parameter values of `State.reset`. The spec leaves every one open;
the values are those of 95_test_vectors.md's conventions, but for `scrollUp`, which is the row of the opcode table. -/
def Params.atReset : Params where
  stackCap := 16
  fontBase := .at050
  hiFont := (List.range 512).map Config.hiFontByte
  scrollUp := .bN
  dxy0Base := .noop
  initRes := .r64x32
  cpuHz := 500

end Sys2Proof
end

