-- ==== Sys2Proof/Machine/Memory.lean ====
section
/-! DEFINITION. The 4096-byte memory (20_memory.md R60, R61) as a list of cells in one canonical form, its reset contents, and reading and writing it. -/

namespace Sys2Proof.Machine

/-- The bytes that differ from the reset contents, addresses strictly rising. -/
abbrev Memory := List Host.Cell

/-- The memory size, addresses 0x000 to 0xFFF (00_scope.md R5; 20_memory.md R60). -/
def memorySize : Nat := 0x1000

/-- The program load base and the reset entry point (00_scope.md R5; 20_memory.md R66; 70_reset_and_hazards.md R293). -/
def programBase : Nat := 0x200

/-- The end of the region `LoadFont` clears, 0x000 to 0x1FF (20_memory.md R66, R69, D32). -/
def fontRegionSize : Nat := 0x200

/-- The low-resolution glyph stride (00_scope.md R5). -/
def loGlyphStride : Nat := 5

/-- The high-resolution glyph stride (00_scope.md R5; 42_index_memory.md R173). -/
def hiGlyphStride : Nat := 32

/-- `LO_FONT`, glyphs 0 to F of 5 bytes (20_memory.md R67; PRESUMED by the spec, 93_implementation_defined.md G1, log 16). -/
def loFont : List Byte :=
  [0xF0, 0x90, 0x90, 0x90, 0xF0, 0x20, 0x60, 0x20, 0x20, 0x70] ++
  [0xF0, 0x10, 0xF0, 0x80, 0xF0, 0xF0, 0x10, 0xF0, 0x10, 0xF0] ++
  [0x90, 0x90, 0xF0, 0x10, 0x10, 0xF0, 0x80, 0xF0, 0x10, 0xF0] ++
  [0xF0, 0x80, 0xF0, 0x90, 0xF0, 0xF0, 0x10, 0x20, 0x40, 0x40] ++
  [0xF0, 0x90, 0xF0, 0x90, 0xF0, 0xF0, 0x90, 0xF0, 0x10, 0xF0] ++
  [0xF0, 0x90, 0xF0, 0x90, 0x90, 0xE0, 0x90, 0xE0, 0x90, 0xE0] ++
  [0xF0, 0x80, 0x80, 0x80, 0xF0, 0xE0, 0x90, 0x90, 0x90, 0xE0] ++
  [0xF0, 0x80, 0xF0, 0x80, 0xF0, 0xF0, 0x80, 0xF0, 0x80, 0x80]

/-- What an unlisted address reads as: the contents after reset, `LO_FONT` at the font base and 0 elsewhere
(70_reset_and_hazards.md R292, R290; log 11). -/
def resetByte (base : FontBase) (a : Nat) : Byte :=
  if base.address ≤ a then loFont.getD (a - base.address) 0 else 0

/-- The byte at address `a`. -/
def Memory.read (base : FontBase) : Memory → Nat → Byte
  | [], a => resetByte base a
  | (k, c) :: m, a => if k = a then c else Memory.read base m a

/-- `MEM[a] <- b`, keeping the canonical form: a byte equal to the reset contents is not listed. -/
def Memory.write (base : FontBase) : Memory → Nat → Byte → Memory
  | [], a, b => if b = resetByte base a then [] else [(a, b)]
  | (k, c) :: m, a, b =>
    if a < k then if b = resetByte base a then (k, c) :: m else (a, b) :: (k, c) :: m
    else if a = k then if b = resetByte base a then m else (a, b) :: m
    else (k, c) :: Memory.write base m a b

/-- Consecutive byte writes from address `a` up, each address reduced modulo 4096 (20_memory.md R61). -/
def Memory.writeAll (base : FontBase) : Memory → Nat → List Byte → Memory
  | m, _, [] => m
  | m, a, b :: bs => Memory.writeAll base (m.write base (a % memorySize) b) (a + 1) bs

/-- The canonical form from address `lo` up: rising addresses below 4096, no byte equal to the reset contents. -/
def Memory.wfFrom (base : FontBase) : Nat → Memory → Bool
  | _, [] => true
  | lo, (k, c) :: m => decide (lo ≤ k) && decide (k < memorySize) && c != resetByte base k && Memory.wfFrom base (k + 1) m

/-- The canonical form. -/
def Memory.wf (base : FontBase) (m : Memory) : Bool := Memory.wfFrom base 0 m

end Sys2Proof.Machine
end

