-- ==== Sys2Proof/Machine/Screen.lean ====
section
/-! DEFINITION. The framebuffer grid (10_state.md R36 to R38) and the primitives of 44_display.md: blit, scroll, clear. -/

namespace Sys2Proof.Machine

/-- `FB` as a list of rows, row 0 first, each a list of pixels, column 0 first. -/
abbrev Grid := List (List Bool)

/-- `FB[c, r]`; a coordinate outside the grid reads as clear. -/
def Grid.pixel (g : Grid) (c r : Nat) : Bool := (g.getD r []).getD c false

/-- `FB[c, r] <- FB[c, r] ^ 1` (44_display.md R220). -/
def Grid.flip (g : Grid) (c r : Nat) : Grid := g.modify r fun row => row.modify c Bool.not

/-- The `W` by `H` grid whose pixel at column `c`, row `r` is `f c r`. -/
def Grid.build (res : Resolution) (f : Nat → Nat → Bool) : Grid :=
  (List.range res.height).map fun r => (List.range res.width).map fun c => f c r

/-- The `W` by `H` grid with every pixel 0 (10_state.md R37, R38). -/
def Grid.blank (res : Resolution) : Grid := List.replicate res.height (List.replicate res.width false)

/-- `H` rows of `W` pixels (10_state.md R36). -/
def Grid.wf (res : Resolution) (g : Grid) : Bool :=
  g.length == res.height && g.all fun row => row.length == res.width

/-- One column of one sprite row: the body of `Blit`'s inner loop (44_display.md R220), on the grid and the collision bit. -/
def Grid.blitBit (res : Resolution) (bits : Nat → Nat → Bool) (c0 r0 row : Nat) (acc : Grid × Bool) (col : Nat) : Grid × Bool :=
  if bits row col && decide (c0 + col < res.width) && decide (r0 + row < res.height) then
    (acc.1.flip (c0 + col) (r0 + row), acc.2 || acc.1.pixel (c0 + col) (r0 + row))
  else acc

/-- `Blit`'s inner loop: one sprite row of `nb` columns. -/
def Grid.blitRow (res : Resolution) (bits : Nat → Nat → Bool) (nb c0 r0 : Nat) (acc : Grid × Bool) (row : Nat) : Grid × Bool :=
  (List.range nb).foldl (Grid.blitBit res bits c0 r0 row) acc

/-- `Blit` (44_display.md R220) of a sprite of `rows` rows and `nb` columns whose bit at row `row`, column `col` is `bits row col`:
the origin wraps, the body is clipped; the result is the grid and `hit`. -/
def Grid.blit (res : Resolution) (g : Grid) (bits : Nat → Nat → Bool) (rows nb x0 y0 : Nat) : Grid × Bool :=
  (List.range rows).foldl (Grid.blitRow res bits nb (x0 % res.width) (y0 % res.height)) (g, false)

/-- SCD's shift (44_display.md R225). -/
def Grid.scrollDown (res : Resolution) (g : Grid) (n : Nat) : Grid :=
  Grid.build res fun c r => if n ≤ r then g.pixel c (r - n) else false

/-- SCU's shift (44_display.md R226). -/
def Grid.scrollUp (res : Resolution) (g : Grid) (n : Nat) : Grid :=
  Grid.build res fun c r => if r + n < res.height then g.pixel c (r + n) else false

/-- The columns SCR and SCL move (44_display.md R227, R228, D21). -/
def scrollColumns : Nat := 4

/-- SCR's shift (44_display.md R227). -/
def Grid.scrollRight (res : Resolution) (g : Grid) : Grid :=
  Grid.build res fun c r => if scrollColumns ≤ c then g.pixel (c - scrollColumns) r else false

/-- SCL's shift (44_display.md R228). -/
def Grid.scrollLeft (res : Resolution) (g : Grid) : Grid :=
  Grid.build res fun c r => if c + scrollColumns < res.width then g.pixel (c + scrollColumns) r else false

end Sys2Proof.Machine
end

