-- ==== Sys2Proof/Machine/State.lean ====
section
/-! DEFINITION. The state of the CORE as plain data (10_state.md R52), the reasons a step can stop, and the state after reset. -/

namespace Sys2Proof.Machine

/-- `EXEC`, the dispatcher state (10_state.md R39). -/
inductive ExecState where
  | running
  | awaitingKey (x : Nibble)
  | halted
  deriving DecidableEq, Repr

/-- `FONT`, the glyph table the font region holds (10_state.md R48). -/
inductive FontSet where
  | lo
  | hi
  deriving DecidableEq, Repr

/-- Empty, since no error event of the CORE stops it (60_exceptions.md R260, R270; log 20): no constructor, so no step raises one. -/
inductive Fault where
  deriving DecidableEq, Repr

/-- The host's own refusal only (log 20). -/
inductive Refusal where
  /-- Raised by an arm of `exec` that has no meaning yet; safe. No arm of this model raises it. -/
  | notModelled (mnemonic : String)
  deriving DecidableEq, Repr

/-- The complete CORE state (10_state.md R52) with the external `FLAGSTORE`, the open parameters, and the model's own draw counter. -/
structure State where
  /-- `V[0..15]` (R20). -/
  v : Vector Byte 16
  /-- `I` (R23). -/
  i : Word
  /-- `PC` (R24). -/
  pc : Word
  /-- `SP` (R26). -/
  sp : Nat
  /-- `STK` (R26): `P_STACK_CAP` entries, dead ones included. -/
  stk : List Word
  /-- `DT` (R29). -/
  dt : Byte
  /-- `ST` (R30). -/
  st : Byte
  /-- `KEYS` (R31). -/
  keys : Vector Bool 16
  /-- `KREL` (R32). -/
  krel : Option Nibble
  /-- `RES` (R36). -/
  res : Resolution
  /-- `FB` (R36). -/
  fb : Grid
  /-- `EXEC` (R39). -/
  execState : ExecState
  /-- `QCFG` (R40). -/
  qcfg : Quirks
  /-- `FONT` (R48). -/
  font : FontSet
  /-- `ERR` (R49). -/
  err : Byte
  /-- `LOADED` (R50). -/
  loaded : Bool
  /-- `FLAGSTORE` (R51), external. -/
  flagStore : List Byte
  /-- `MEM` (20_memory.md R60). -/
  mem : Memory
  /-- The open parameters (00_scope.md R6); no operation changes them. -/
  params : Params
  /-- The MODEL'S OWN field: how many bytes CXNN has drawn (00_scope.md R7; log 8). -/
  draws : Nat
  deriving DecidableEq, Repr

/-- The state after `ResetAll` under given parameters (70_reset_and_hazards.md R290 to R292), at VM creation: nothing saved in
`FLAGSTORE` (10_state.md R51, log 9), no byte drawn (log 8). -/
def State.initial (p : Params) : State where
  v := Vector.replicate 16 0
  i := 0x200
  pc := 0x200
  sp := 0
  stk := List.replicate p.stackCap 0
  dt := 0
  st := 0
  keys := Vector.replicate 16 false
  krel := none
  res := p.initRes
  fb := Grid.blank p.initRes
  execState := .running
  qcfg := Quirks.ofPreset defaultPreset
  font := .lo
  err := 0
  loaded := false
  flagStore := []
  mem := []
  params := p
  draws := 0

/-- The machine right after reset (R292, log 10), under the parameter values of logs 1 to 7. -/
def State.reset : State := State.initial Params.atReset

end Sys2Proof.Machine
end

