-- ==== Sys2Proof/Machine/Ops.lean ====
section
/-! DEFINITION. The named operations over registers, memory, stack, screen and status: every read and write of State goes through them. Taking an exception has no counterpart in this CORE (60_exceptions.md R260, R270); its error events are one shared operation, `raiseDiag`. -/

namespace Sys2Proof.Machine

/-- A value reduced to 12 bits and held in 16, as `PC` and `I` are (10_state.md R23, R24). -/
def toAddr (n : Nat) : Word := BitVec.ofNat 16 (n % memorySize)

/-- VF's index (10_state.md R21). -/
def flagIndex : Nibble := 0xF

namespace State

/-! ### General registers -/

/-- `V[x]` (10_state.md R20). -/
def reg (s : State) (x : Nibble) : Byte := s.v[x.toNat]'x.isLt

/-- `V[x] <- b`. -/
def setReg (s : State) (x : Nibble) (b : Byte) : State := { s with v := s.v.set x.toNat b x.isLt }

/-- The registers after `for k in 0..n-1: V[k] <- f k` (42_index_memory.md R176, R178). -/
def fillVector (f : Nat → Byte) : Nat → Vector Byte 16 → Vector Byte 16
  | 0, v => v
  | k + 1, v => (fillVector f k v).setIfInBounds k (f k)

/-- `for k in 0..n-1: V[k] <- f k`. -/
def fillRegs (s : State) (f : Nat → Byte) (n : Nat) : State := { s with v := fillVector f n s.v }

/-- `[V[0], ..., V[n-1]]` (42_index_memory.md R175, R177). -/
def regList (s : State) (n : Nat) : List Byte := s.v.toList.take n

/-! ### Index register and program counter -/

/-- `I <- n & 0xFFF` (10_state.md R23, D7). -/
def setI (s : State) (n : Nat) : State := { s with i := toAddr n }

/-- `PC <- n mod 4096` (10_state.md R24). -/
def setPc (s : State) (n : Nat) : State := { s with pc := toAddr n }

/-! ### Memory -/

/-- `MemRead(a, 1)`, the address reduced modulo 4096 (20_memory.md R61; 00_scope.md section 4). -/
def readByte (s : State) (a : Nat) : Byte := s.mem.read s.params.fontBase (a % memorySize)

/-- `MemRead(a, 2)`, big-endian (20_memory.md R62). -/
def readWord (s : State) (a : Nat) : Word := s.readByte a ++ s.readByte (a + 1)

/-- `MemWrite` of consecutive bytes from `a` up, each address reduced modulo 4096 (20_memory.md R61, R64). -/
def writeBytes (s : State) (a : Nat) (bs : List Byte) : State := { s with mem := s.mem.writeAll s.params.fontBase a bs }

/-! ### Status -/

/-- `ERR` written. -/
def setErr (s : State) (e : Byte) : State := { s with err := e }

/-- `raise Diag(code)` (60_exceptions.md R263): a sticky bit, and execution goes on. -/
def raiseDiag (s : State) (code : Nat) : State := s.setErr (s.err ||| 1#8 <<< code)

/-- `EXEC` written (10_state.md R39). -/
def setExec (s : State) (e : ExecState) : State := { s with execState := e }

/-- `FONT` written (10_state.md R48). -/
def setFont (s : State) (f : FontSet) : State := { s with font := f }

/-! ### Call stack -/

/-- `SP` and `STK` written. -/
def setStack (s : State) (sp : Nat) (stk : List Word) : State := { s with sp := sp, stk := stk }

/-- `Push(a)` (10_state.md R27): dropped on a full stack, with `Diag(3)`. -/
def push (s : State) (a : Word) : State :=
  if s.sp < s.params.stackCap then s.setStack (s.sp + 1) (s.stk.set s.sp a) else s.raiseDiag 3

/-- The address `Pop()` returns (10_state.md R28): the top entry in 12 bits, or the sentinel 0x001. -/
def popValue (s : State) : Nat := if 0 < s.sp then (s.stk.getD (s.sp - 1) 0).toNat % memorySize else 0x001

/-- The state `Pop()` leaves (10_state.md R28): `Diag(4)` on an empty stack. -/
def popState (s : State) : State := if 0 < s.sp then s.setStack (s.sp - 1) s.stk else s.raiseDiag 4

/-! ### Timers, keypad, flag store, random draw, configuration -/

/-- `DT` written (10_state.md R29). -/
def setDt (s : State) (b : Byte) : State := { s with dt := b }

/-- `ST` written (10_state.md R30). -/
def setSt (s : State) (b : Byte) : State := { s with st := b }

/-- `KEYS[k]` (10_state.md R31). -/
def key (s : State) (k : Nibble) : Bool := s.keys[k.toNat]'k.isLt

/-- `KEYS` and `KREL` written (10_state.md R35). -/
def setKeypad (s : State) (levels : Vector Bool 16) (released : Option Nibble) : State := { s with keys := levels, krel := released }

/-- `FLAGSTORE` written (10_state.md R51). -/
def setFlagStore (s : State) (bs : List Byte) : State := { s with flagStore := bs }

/-- `QCFG` written (10_state.md R47). -/
def setQcfg (s : State) (q : Quirks) : State := { s with qcfg := q }

/-- `LOADED` written (10_state.md R50). -/
def setLoaded (s : State) (b : Bool) : State := { s with loaded := b }

/-- `draw RND`: the byte drawn (00_scope.md R7). -/
def rndByte (s : State) : Byte := Config.rnd s.draws

/-- `draw RND`: one more byte drawn (41_alu.md R153, D50). -/
def countDraw (s : State) : State := { s with draws := s.draws + 1 }

/-- `TONE = (ST != 0)` at every moment (10_state.md R53). -/
def tone (s : State) : Bool := s.st != 0

/-! ### Screen and font -/

/-- `FB[c, r]`. -/
def pixel (s : State) (c r : Nat) : Bool := s.fb.pixel c r

/-- `RES` and `FB` written. -/
def setScreen (s : State) (res : Resolution) (fb : Grid) : State := { s with res := res, fb := fb }

/-- `FB` written at the current `RES`. -/
def setFb (s : State) (fb : Grid) : State := s.setScreen s.res fb

/-- `SetMode(res)` (10_state.md R37). -/
def setMode (s : State) (res : Resolution) : State := s.setScreen res (Grid.blank res)

/-- `Clear()` (10_state.md R38). -/
def clearScreen (s : State) : State := s.setFb (Grid.blank s.res)

/-- The glyph table of a set (20_memory.md R67, R68). -/
def fontTable (s : State) : FontSet → List Byte
  | .lo => loFont
  | .hi => s.params.hiFont

/-- `LoadFont(set)` (20_memory.md R69). -/
def loadFont (s : State) (f : FontSet) : State :=
  ((s.writeBytes 0 (List.replicate fontRegionSize 0)).writeBytes s.params.fontBase.address (s.fontTable f)).setFont f

/-- `if FONT != set: LoadFont(set)` (42_index_memory.md R172, R173; 20_memory.md R70). -/
def needFont (s : State) (f : FontSet) : State := if s.font = f then s else s.loadFont f

end State

end Sys2Proof.Machine
end

