-- ==== Sys2Proof/Machine/Flags.lean ====
section
/-! DEFINITION. Every flag computation of the spec, and the order of result and flag writes. VF is V[F] (10_state.md R21). -/

namespace Sys2Proof.Machine

/-- A flag as the byte VF takes: 1 or 0. -/
def flagByte (b : Bool) : Byte := if b then 1 else 0

/-- The carry of 8XY4: the sum exceeds 255 (41_alu.md R148). -/
def carryOut (vx vy : Byte) : Bool := decide (255 < vx.toNat + vy.toNat)

/-- The no-borrow bit of 8XY5 and 8XY7: minuend at least subtrahend (41_alu.md R149, R151). -/
def noBorrow (minuend subtrahend : Byte) : Bool := decide (subtrahend.toNat ≤ minuend.toNat)

/-- The bit 8XY6 shifts out (41_alu.md R150). -/
def outRight (v : Byte) : Bool := v.getLsbD 0

/-- The bit 8XYE shifts out (41_alu.md R152). -/
def outLeft (v : Byte) : Bool := v.getLsbD 7

namespace State

/-- `VF <- b`. -/
def setFlag (s : State) (b : Bool) : State := s.setReg flagIndex (flagByte b)

/-- The result into `V[x]`, then the flag into VF, so that VF ends holding the flag (41_alu.md R141; 10_state.md R21, D8). -/
def setResult (s : State) (x : Nibble) (r : Byte) (flag : Bool) : State := (s.setReg x r).setFlag flag

/-- The result of 8XY1, 8XY2 or 8XY3 into `V[x]`, then `VF <- 0` if `resetFlagOnBitwiseOp` is on (10_state.md R45; 41_alu.md R145). -/
def setBitwise (s : State) (x : Nibble) (r : Byte) : State :=
  if s.qcfg.resetFlagOnBitwiseOp then s.setResult x r false else s.setReg x r

end State

end Sys2Proof.Machine
end

