-- ==== Sys2Proof/Machine/Operands.lean ====
section
/-! DEFINITION. Every operand form of the spec: skip targets, jump offsets, shift sources, key and glyph indices, sprite rows, and the gate of the extension forms. -/

namespace Sys2Proof.Machine.State

/-- A taken skip adds 2 to `PC` modulo 4096, with no guard inside the instruction (40_flow.md R125, D5). -/
def skipIf (s : State) (taken : Bool) : State := if taken then s.setPc (s.pc.toNat + 2) else s

/-- The register the B family adds: V0, or `V[X]` when `jumpUsesVx` (40_flow.md R124; 10_state.md R42). -/
def offsetReg (s : State) (nnn : Addr) : Nibble := if s.qcfg.jumpUsesVx then nnn.extractLsb' 8 4 else 0

/-- The value 8XY6 and 8XYE shift: `V[Y]` when `shiftUsesVy` is off, `V[X]` when it is on (10_state.md R41; 90_conflicts.md C1). -/
def shiftSource (s : State) (x y : Nibble) : Byte := if s.qcfg.shiftUsesVy then s.reg x else s.reg y

/-- `V[x] & 0xF`: a key index (43_timers_keys.md R203, D27) or a hex digit (42_index_memory.md R172). -/
def lowNibble (s : State) (x : Nibble) : Nibble := (s.reg x).setWidth 4

/-- The address of a glyph: the font base plus the digit times the stride (42_index_memory.md R172, R173; 90_conflicts.md C6). -/
def glyphAddress (s : State) (stride : Nat) (x : Nibble) : Nat := s.params.fontBase.address + (s.lowNibble x).toNat * stride

/-- The three decimal digits FX33 stores, hundreds first (42_index_memory.md R174). -/
def decimalDigits (v : Byte) : List Byte :=
  [BitVec.ofNat 8 (v.toNat / 100), BitVec.ofNat 8 (v.toNat / 10 % 10), BitVec.ofNat 8 (v.toNat % 10)]

/-- `if blockTransferAdvancesI = 0: I <- (I + X + 1) & 0xFFF` (10_state.md R43; 42_index_memory.md R175; 90_conflicts.md C2). -/
def advanceI (s : State) (x : Nibble) : State :=
  if s.qcfg.blockTransferAdvancesI then s else s.setI (s.i.toNat + x.toNat + 1)

/-- `bits[nb - 1 - col]` of sprite row `row` at `I`: one byte a row, or two bytes big-endian when wide (44_display.md R220; 20_memory.md R62). -/
def spriteBit (s : State) (wide : Bool) (row col : Nat) : Bool :=
  if wide then (s.readWord (s.i.toNat + 2 * row)).getLsbD (15 - col) else (s.readByte (s.i.toNat + row)).getLsbD (7 - col)

/-- The columns of a sprite row: 16 when wide, else 8 (44_display.md R220). -/
def spriteColumns (wide : Bool) : Nat := if wide then 16 else 8

/-- `Blit(V[x], V[y], rows, wide)` on this state: the grid and `hit` (44_display.md R220, R222, R223). -/
def blitAt (s : State) (x y : Nibble) (rows : Nat) (wide : Bool) : Grid × Bool :=
  s.fb.blit s.res (s.spriteBit wide) rows (spriteColumns wide) (s.reg x).toNat (s.reg y).toNat

/-- `VF <- Blit(V[x], V[y], rows, wide)`, the coordinates read before VF is written (44_display.md R222, D19). -/
def drawSprite (s : State) (x y : Nibble) (rows : Nat) (wide : Bool) : State :=
  (s.setFb (s.blitAt x y rows wide).1).setFlag (s.blitAt x y rows wide).2

/-- The gate of the SUPER-CHIP forms: the effect when `extendedInstructionSet` is on, nothing when off (45_system.md R251; 10_state.md R44). -/
def whenExtended (s t : State) : State := if s.qcfg.extendedInstructionSet then t else s

end Sys2Proof.Machine.State
end

