-- ==== Sys2Proof/Machine/Alu.lean ====
section
/-! DEFINITION. The register file and ALU instructions (41_alu.md): 8-bit wrap-around (R140), operands sampled first and the flag written last (R141). -/

namespace Sys2Proof.Machine

/-- LD Vx, NN (R142). -/
def execLdImm (x : Nibble) (nn : Byte) (s : State) : Host.Outcome State Fault Refusal := .next (s.setReg x nn)

/-- ADD Vx, NN: VF is not a flag here (R143). -/
def execAddImm (x : Nibble) (nn : Byte) (s : State) : Host.Outcome State Fault Refusal := .next (s.setReg x (s.reg x + nn))

/-- LD Vx, Vy (R144). -/
def execLdReg (x y : Nibble) (s : State) : Host.Outcome State Fault Refusal := .next (s.setReg x (s.reg y))

/-- OR Vx, Vy (R145). -/
def execOrReg (x y : Nibble) (s : State) : Host.Outcome State Fault Refusal := .next (s.setBitwise x (s.reg x ||| s.reg y))

/-- AND Vx, Vy (R146). -/
def execAndReg (x y : Nibble) (s : State) : Host.Outcome State Fault Refusal := .next (s.setBitwise x (s.reg x &&& s.reg y))

/-- XOR Vx, Vy (R147). -/
def execXorReg (x y : Nibble) (s : State) : Host.Outcome State Fault Refusal := .next (s.setBitwise x (s.reg x ^^^ s.reg y))

/-- ADD Vx, Vy (R148). -/
def execAddReg (x y : Nibble) (s : State) : Host.Outcome State Fault Refusal :=
  .next (s.setResult x (s.reg x + s.reg y) (carryOut (s.reg x) (s.reg y)))

/-- SUB Vx, Vy: `Vx - Vy` (R149). -/
def execSubReg (x y : Nibble) (s : State) : Host.Outcome State Fault Refusal :=
  .next (s.setResult x (s.reg x - s.reg y) (noBorrow (s.reg x) (s.reg y)))

/-- SHR Vx, Vy (R150). -/
def execShrReg (x y : Nibble) (s : State) : Host.Outcome State Fault Refusal :=
  .next (s.setResult x (s.shiftSource x y >>> 1) (outRight (s.shiftSource x y)))

/-- SUBN Vx, Vy: `Vy - Vx` (R151). -/
def execSubnReg (x y : Nibble) (s : State) : Host.Outcome State Fault Refusal :=
  .next (s.setResult x (s.reg y - s.reg x) (noBorrow (s.reg y) (s.reg x)))

/-- SHL Vx, Vy (R152). -/
def execShlReg (x y : Nibble) (s : State) : Host.Outcome State Fault Refusal :=
  .next (s.setResult x (s.shiftSource x y <<< 1) (outLeft (s.shiftSource x y)))

/-- RND Vx, NN: one free byte a CXNN, also when NN is 0 (R153, D50). -/
def execRnd (x : Nibble) (nn : Byte) (s : State) : Host.Outcome State Fault Refusal :=
  .next (s.countDraw.setReg x (s.rndByte &&& nn))

end Sys2Proof.Machine
end

