-- ==== Sys2Proof/Machine/Display.lean ====
section
/-! DEFINITION. The framebuffer instructions (44_display.md). -/

namespace Sys2Proof.Machine

/-- CLS (R221). -/
def execCls (s : State) : Host.Outcome State Fault Refusal := .next s.clearScreen

/-- DRW Vx, Vy, N (R222). -/
def execDrw (x y n : Nibble) (s : State) : Host.Outcome State Fault Refusal := .next (s.drawSprite x y n.toNat false)

/-- DXY0 with the extension off (R224, D18): the open parameter `P_DXY0_BASE`. -/
def State.drawBase (s : State) (x y : Nibble) : State :=
  match s.params.dxy0Base with
  | .noop => s
  | .zeroRows => s.drawSprite x y 0 false

/-- DRW16 Vx, Vy: 16 rows of 16 columns in every resolution (R223, D17); R224 with the extension off. -/
def execDrw16 (x y : Nibble) (s : State) : Host.Outcome State Fault Refusal :=
  .next (if s.qcfg.extendedInstructionSet then s.drawSprite x y 16 true else s.drawBase x y)

/-- SCD N, extension (R225). -/
def execScd (n : Nibble) (s : State) : Host.Outcome State Fault Refusal :=
  .next (s.whenExtended (s.setFb (s.fb.scrollDown s.res n.toNat)))

/-- SCU N, extension (R226). -/
def execScu (n : Nibble) (s : State) : Host.Outcome State Fault Refusal :=
  .next (s.whenExtended (s.setFb (s.fb.scrollUp s.res n.toNat)))

/-- SCR, extension (R227). -/
def execScr (s : State) : Host.Outcome State Fault Refusal := .next (s.whenExtended (s.setFb (s.fb.scrollRight s.res)))

/-- SCL, extension (R228). -/
def execScl (s : State) : Host.Outcome State Fault Refusal := .next (s.whenExtended (s.setFb (s.fb.scrollLeft s.res)))

/-- LOW, extension (R229). -/
def execLow (s : State) : Host.Outcome State Fault Refusal := .next (s.whenExtended (s.setMode .r64x32))

/-- HIGH, extension (R230). -/
def execHigh (s : State) : Host.Outcome State Fault Refusal := .next (s.whenExtended (s.setMode .r128x64))

end Sys2Proof.Machine
end

