-- ==== Sys2Proof/Machine/Flow.lean ====
section
/-! DEFINITION. The control-flow instructions (40_flow.md). Each starts from the `PC` the fetch left (R101). -/

namespace Sys2Proof.Machine

/-- SYS NNN: nothing (R120). -/
def execSys (_nnn : Addr) (s : State) : Host.Outcome State Fault Refusal := .next s

/-- RET: `PC <- Pop()` (R121; 10_state.md R28). -/
def execRet (s : State) : Host.Outcome State Fault Refusal := .next (s.popState.setPc s.popValue)

/-- JP NNN (R122). -/
def execJp (nnn : Addr) (s : State) : Host.Outcome State Fault Refusal := .next (s.setPc nnn.toNat)

/-- CALL NNN: `Push(PC)`, and the jump also when the push is dropped (R123, D13). -/
def execCall (nnn : Addr) (s : State) : Host.Outcome State Fault Refusal := .next ((s.push s.pc).setPc nnn.toNat)

/-- JP V0, NNN / JP Vx, XNN: `{X, NN}` is `NNN` under both readings (R124; 30_encoding.md R92). -/
def execJpOff (nnn : Addr) (s : State) : Host.Outcome State Fault Refusal :=
  .next (s.setPc (nnn.toNat + (s.reg (s.offsetReg nnn)).toNat))

/-- SE Vx, NN (R125). -/
def execSeImm (x : Nibble) (nn : Byte) (s : State) : Host.Outcome State Fault Refusal := .next (s.skipIf (s.reg x == nn))

/-- SNE Vx, NN (R126). -/
def execSneImm (x : Nibble) (nn : Byte) (s : State) : Host.Outcome State Fault Refusal := .next (s.skipIf (s.reg x != nn))

/-- SE Vx, Vy (R127). -/
def execSeReg (x y : Nibble) (s : State) : Host.Outcome State Fault Refusal := .next (s.skipIf (s.reg x == s.reg y))

/-- SNE Vx, Vy (R128). -/
def execSneReg (x y : Nibble) (s : State) : Host.Outcome State Fault Refusal := .next (s.skipIf (s.reg x != s.reg y))

end Sys2Proof.Machine
end

