-- ==== Sys2Proof/Machine/Index.lean ====
section
/-! DEFINITION. The index register and memory transfer instructions (42_index_memory.md). -/

namespace Sys2Proof.Machine

/-- LD I, NNN (R170). -/
def execLdI (nnn : Addr) (s : State) : Host.Outcome State Fault Refusal := .next (s.setI nnn.toNat)

/-- ADD I, Vx: VF unchanged (R171, D26). -/
def execAddI (x : Nibble) (s : State) : Host.Outcome State Fault Refusal := .next (s.setI (s.i.toNat + (s.reg x).toNat))

/-- LD F, Vx (R172). -/
def execLdF (x : Nibble) (s : State) : Host.Outcome State Fault Refusal :=
  .next ((s.needFont .lo).setI (s.glyphAddress loGlyphStride x))

/-- LD HF, Vx, extension (R173). -/
def execLdHF (x : Nibble) (s : State) : Host.Outcome State Fault Refusal :=
  .next (s.whenExtended ((s.needFont .hi).setI (s.glyphAddress hiGlyphStride x)))

/-- LD B, Vx (R174). -/
def execLdB (x : Nibble) (s : State) : Host.Outcome State Fault Refusal :=
  .next (s.writeBytes s.i.toNat (State.decimalDigits (s.reg x)))

/-- LD [I], Vx: V0 to VX stored at `I` (R175). -/
def execStRegs (x : Nibble) (s : State) : Host.Outcome State Fault Refusal :=
  .next ((s.writeBytes s.i.toNat (s.regList (x.toNat + 1))).advanceI x)

/-- LD Vx, [I]: V0 to VX loaded from `I` (R176). -/
def execLdRegs (x : Nibble) (s : State) : Host.Outcome State Fault Refusal :=
  .next ((s.fillRegs (fun k => s.readByte (s.i.toNat + k)) (x.toNat + 1)).advanceI x)

/-- LD R, Vx, extension: the store is replaced (R177, D38). -/
def execSaveFlags (x : Nibble) (s : State) : Host.Outcome State Fault Refusal :=
  .next (s.whenExtended (s.setFlagStore (s.regList (x.toNat + 1))))

/-- V0 to VX from the flag store, absent bytes as 0, and `Diag(5)` on more than 16 stored bytes (R178; 60_exceptions.md R267). -/
def State.loadFlagRegs (s : State) (x : Nibble) : State :=
  let t := s.fillRegs (fun k => s.flagStore.getD k 0) (x.toNat + 1)
  if 16 < s.flagStore.length then t.raiseDiag 5 else t

/-- LD Vx, R, extension (R178). -/
def execLoadFlags (x : Nibble) (s : State) : Host.Outcome State Fault Refusal := .next (s.whenExtended (s.loadFlagRegs x))

end Sys2Proof.Machine
end

