-- ==== Sys2Proof/Machine/Keys.lean ====
section
/-! DEFINITION. The timer and keypad instructions (43_timers_keys.md) and the Step of a waiting CORE. -/

namespace Sys2Proof.Machine

/-- LD Vx, DT (R200). -/
def execLdVxDt (x : Nibble) (s : State) : Host.Outcome State Fault Refusal := .next (s.setReg x s.dt)

/-- LD DT, Vx (R201). -/
def execLdDtVx (x : Nibble) (s : State) : Host.Outcome State Fault Refusal := .next (s.setDt (s.reg x))

/-- LD ST, Vx (R202). -/
def execLdStVx (x : Nibble) (s : State) : Host.Outcome State Fault Refusal := .next (s.setSt (s.reg x))

/-- SKP Vx (R203). -/
def execSkp (x : Nibble) (s : State) : Host.Outcome State Fault Refusal := .next (s.skipIf (s.key (s.lowNibble x)))

/-- SKNP Vx (R204). -/
def execSknp (x : Nibble) (s : State) : Host.Outcome State Fault Refusal := .next (s.skipIf (!s.key (s.lowNibble x)))

/-- LD Vx, K: the released key at once, or the wait (R205, D28). -/
def execLdVxK (x : Nibble) (s : State) : Host.Outcome State Fault Refusal :=
  match s.krel with
  | some k => .next (s.setReg x (k.setWidth 8))
  | none => .next (s.setExec (.awaitingKey x))

/-- `AwaitStep(x)` (R206): the released key ends the wait; `KREL` is not consumed (10_state.md R33). -/
def State.awaitStep (s : State) (x : Nibble) : State :=
  match s.krel with
  | some k => (s.setReg x (k.setWidth 8)).setExec .running
  | none => s

end Sys2Proof.Machine
end

