-- ==== Sys2Proof/Machine/System.lean ====
section
/-! DEFINITION. EXIT and the execution of the Unknown words (45_system.md). -/

namespace Sys2Proof.Machine

/-- EXIT, extension: `EXEC <- HALTED` (R250, D24). -/
def execExit (s : State) : Host.Outcome State Fault Refusal := .next (s.whenExtended (s.setExec .halted))

/-- An Unknown word: `Diag(2)` and nothing else (R252; 30_encoding.md R97; 60_exceptions.md R264). -/
def State.unknownWord (s : State) : State := s.raiseDiag 2

end Sys2Proof.Machine
end

