-- ==== Sys2Proof/Syntax.lean ====
section
/-! DEFINITION. The instructions: one constructor per row of spec/opcode_table.json (30_encoding.md R94 to R96). -/

namespace Sys2Proof

/-- Operands as 30_encoding.md R91 and R92 give them: `x`, `y` register indices, `nn` the byte, `nnn` the address, `n` the count. -/
inductive Instr where
  /-- CLS, `00E0` (44_display.md R221). -/
  | cls
  /-- RET, `00EE` (40_flow.md R121). -/
  | ret
  /-- SCD N, `00CN`, extension (44_display.md R225). -/
  | scd (n : Nibble)
  /-- SCU N, `00BN` or `00DN`, extension (44_display.md R226). -/
  | scu (n : Nibble)
  /-- SCR, `00FB`, extension (44_display.md R227). -/
  | scr
  /-- SCL, `00FC`, extension (44_display.md R228). -/
  | scl
  /-- EXIT, `00FD`, extension (45_system.md R250). -/
  | exit
  /-- LOW, `00FE`, extension (44_display.md R229). -/
  | low
  /-- HIGH, `00FF`, extension (44_display.md R230). -/
  | high
  /-- SYS NNN, every other word of family 0 (40_flow.md R120). -/
  | sys (nnn : Addr)
  /-- JP NNN, `1NNN` (40_flow.md R122). -/
  | jp (nnn : Addr)
  /-- CALL NNN, `2NNN` (40_flow.md R123). -/
  | call (nnn : Addr)
  /-- SE Vx, NN, `3XNN` (40_flow.md R125). -/
  | seImm (x : Nibble) (nn : Byte)
  /-- SNE Vx, NN, `4XNN` (40_flow.md R126). -/
  | sneImm (x : Nibble) (nn : Byte)
  /-- SE Vx, Vy, `5XY0` (40_flow.md R127). -/
  | seReg (x y : Nibble)
  /-- LD Vx, NN, `6XNN` (41_alu.md R142). -/
  | ldImm (x : Nibble) (nn : Byte)
  /-- ADD Vx, NN, `7XNN` (41_alu.md R143). -/
  | addImm (x : Nibble) (nn : Byte)
  /-- LD Vx, Vy, `8XY0` (41_alu.md R144). -/
  | ldReg (x y : Nibble)
  /-- OR Vx, Vy, `8XY1` (41_alu.md R145). -/
  | orReg (x y : Nibble)
  /-- AND Vx, Vy, `8XY2` (41_alu.md R146). -/
  | andReg (x y : Nibble)
  /-- XOR Vx, Vy, `8XY3` (41_alu.md R147). -/
  | xorReg (x y : Nibble)
  /-- ADD Vx, Vy, `8XY4` (41_alu.md R148). -/
  | addReg (x y : Nibble)
  /-- SUB Vx, Vy, `8XY5` (41_alu.md R149). -/
  | subReg (x y : Nibble)
  /-- SHR Vx, Vy, `8XY6` (41_alu.md R150). -/
  | shrReg (x y : Nibble)
  /-- SUBN Vx, Vy, `8XY7` (41_alu.md R151). -/
  | subnReg (x y : Nibble)
  /-- SHL Vx, Vy, `8XYE` (41_alu.md R152). -/
  | shlReg (x y : Nibble)
  /-- SNE Vx, Vy, `9XY0` (40_flow.md R128). -/
  | sneReg (x y : Nibble)
  /-- LD I, NNN, `ANNN` (42_index_memory.md R170). -/
  | ldI (nnn : Addr)
  /-- JP V0, NNN, `BNNN`; JP Vx, XNN, `BXNN` with `X` and `NN` read out of `nnn` (40_flow.md R124). -/
  | jpOff (nnn : Addr)
  /-- RND Vx, NN, `CXNN` (41_alu.md R153). -/
  | rnd (x : Nibble) (nn : Byte)
  /-- DRW Vx, Vy, N, `DXYN` with N not 0 (44_display.md R222). -/
  | drw (x y n : Nibble)
  /-- DRW16 Vx, Vy, `DXY0` (44_display.md R223, R224). -/
  | drw16 (x y : Nibble)
  /-- SKP Vx, `EX9E` (43_timers_keys.md R203). -/
  | skp (x : Nibble)
  /-- SKNP Vx, `EXA1` (43_timers_keys.md R204). -/
  | sknp (x : Nibble)
  /-- LD Vx, DT, `FX07` (43_timers_keys.md R200). -/
  | ldVxDt (x : Nibble)
  /-- LD Vx, K, `FX0A` (43_timers_keys.md R205). -/
  | ldVxK (x : Nibble)
  /-- LD DT, Vx, `FX15` (43_timers_keys.md R201). -/
  | ldDtVx (x : Nibble)
  /-- LD ST, Vx, `FX18` (43_timers_keys.md R202). -/
  | ldStVx (x : Nibble)
  /-- ADD I, Vx, `FX1E` (42_index_memory.md R171). -/
  | addI (x : Nibble)
  /-- LD F, Vx, `FX29` (42_index_memory.md R172). -/
  | ldF (x : Nibble)
  /-- LD HF, Vx, `FX30`, extension (42_index_memory.md R173). -/
  | ldHF (x : Nibble)
  /-- LD B, Vx, `FX33` (42_index_memory.md R174). -/
  | ldB (x : Nibble)
  /-- LD [I], Vx, `FX55` (42_index_memory.md R175). -/
  | stRegs (x : Nibble)
  /-- LD Vx, [I], `FX65` (42_index_memory.md R176). -/
  | ldRegs (x : Nibble)
  /-- LD R, Vx, `FX75`, extension (42_index_memory.md R177). -/
  | saveFlags (x : Nibble)
  /-- LD Vx, R, `FX85`, extension (42_index_memory.md R178). -/
  | loadFlags (x : Nibble)
  deriving DecidableEq, Repr

end Sys2Proof
end

