-- ==== Sys2Proof/WellFormed.lean ====
section
/-! DEFINITION. Which instruction terms stand for words: the conditions the opcode table sets on its rows. -/

namespace Sys2Proof

/-- The family-0 words of 30_encoding.md R94 items 1 to 5; every other one is SYS (item 6). -/
def Instr.sysFree (su : ScrollUp) (nnn : Addr) : Bool :=
  let w : Word := 0x0#4 ++ nnn
  w != 0x00E0 && w != 0x00EE && w.extractLsb' 4 12 != 0x00C && su.pattern != some (w.extractLsb' 4 12) &&
    w != 0x00FB && w != 0x00FC && w != 0x00FD && w != 0x00FE && w != 0x00FF

/-- SYS takes only the words no other family-0 row matches (R94 item 6); SCU exists only when `P_SCROLL_UP` is
not absent (R226); DRW has N not 0 (R95). Every other row admits every operand of its fields. -/
def Instr.wellFormed (su : ScrollUp) : Instr → Bool
  | .sys nnn => Instr.sysFree su nnn
  | .scu _ => su != .absent
  | .drw _ _ n => n != 0
  | .cls | .ret | .scd _ | .scr | .scl | .exit | .low | .high | .jp _ | .call _ | .seImm _ _ | .sneImm _ _
  | .seReg _ _ | .ldImm _ _ | .addImm _ _ | .ldReg _ _ | .orReg _ _ | .andReg _ _ | .xorReg _ _ | .addReg _ _
  | .subReg _ _ | .shrReg _ _ | .subnReg _ _ | .shlReg _ _ | .sneReg _ _ | .ldI _ | .jpOff _ | .rnd _ _
  | .drw16 _ _ | .skp _ | .sknp _ | .ldVxDt _ | .ldVxK _ | .ldDtVx _ | .ldStVx _ | .addI _ | .ldF _ | .ldHF _
  | .ldB _ | .stRegs _ | .ldRegs _ | .saveFlags _ | .loadFlags _ => true

end Sys2Proof
end

