-- ==== Sys2Proof/Decode.lean ====
section
/-! DEFINITION. The decoder (30_encoding.md R90 to R98), total on any bytes, and after it the encoder. -/

namespace Sys2Proof

/-- Why some bytes are no instruction of the opcode table: the Unknown words of 30_encoding.md R98, by family, and a byte string shorter than a word (R90). -/
inductive DecodeReject where
  /-- 5XYN with N not 0. -/
  | unknown5XYN
  /-- 8XYN with N in 8, 9, A, B, C, D, F. -/
  | unknown8XYN
  /-- 9XYN with N not 0. -/
  | unknown9XYN
  /-- EXNN with NN neither 9E nor A1. -/
  | unknownEXNN
  /-- FXNN with NN in no row. -/
  | unknownFXNN
  /-- Fewer than two bytes: no fetch of the CORE gives this (R90). -/
  | truncated
  deriving DecidableEq, Repr

namespace Decode

/-! The fields of 30_encoding.md R91. -/

def n1 (w : Word) : Nibble := w.extractLsb' 12 4
def x (w : Word) : Nibble := w.extractLsb' 8 4
def y (w : Word) : Nibble := w.extractLsb' 4 4
def n (w : Word) : Nibble := w.extractLsb' 0 4
def nn (w : Word) : Byte := w.extractLsb' 0 8
def nnn (w : Word) : Addr := w.extractLsb' 0 12
/-- op[15:4], family 0's secondary field (R94). -/
def high12 (w : Word) : BitVec 12 := w.extractLsb' 4 12

/-- Family 0, in the order of 30_encoding.md R94. -/
def family0 (su : ScrollUp) (w : Word) : Instr :=
  if w = 0x00E0 then .cls
  else if w = 0x00EE then .ret
  else if high12 w = 0x00C then .scd (n w)
  else if su.pattern = some (high12 w) then .scu (n w)
  else if w = 0x00FB then .scr
  else if w = 0x00FC then .scl
  else if w = 0x00FD then .exit
  else if w = 0x00FE then .low
  else if w = 0x00FF then .high
  else .sys (nnn w)

/-- Family 8 on N (30_encoding.md R96). -/
def family8 (w : Word) : Except DecodeReject Instr :=
  if n w = 0x0 then .ok (.ldReg (x w) (y w))
  else if n w = 0x1 then .ok (.orReg (x w) (y w))
  else if n w = 0x2 then .ok (.andReg (x w) (y w))
  else if n w = 0x3 then .ok (.xorReg (x w) (y w))
  else if n w = 0x4 then .ok (.addReg (x w) (y w))
  else if n w = 0x5 then .ok (.subReg (x w) (y w))
  else if n w = 0x6 then .ok (.shrReg (x w) (y w))
  else if n w = 0x7 then .ok (.subnReg (x w) (y w))
  else if n w = 0xE then .ok (.shlReg (x w) (y w))
  else .error .unknown8XYN

/-- Family E on NN (30_encoding.md R96). -/
def familyE (w : Word) : Except DecodeReject Instr :=
  if nn w = 0x9E then .ok (.skp (x w))
  else if nn w = 0xA1 then .ok (.sknp (x w))
  else .error .unknownEXNN

/-- Family F on NN (30_encoding.md R96). -/
def familyF (w : Word) : Except DecodeReject Instr :=
  if nn w = 0x07 then .ok (.ldVxDt (x w))
  else if nn w = 0x0A then .ok (.ldVxK (x w))
  else if nn w = 0x15 then .ok (.ldDtVx (x w))
  else if nn w = 0x18 then .ok (.ldStVx (x w))
  else if nn w = 0x1E then .ok (.addI (x w))
  else if nn w = 0x29 then .ok (.ldF (x w))
  else if nn w = 0x30 then .ok (.ldHF (x w))
  else if nn w = 0x33 then .ok (.ldB (x w))
  else if nn w = 0x55 then .ok (.stRegs (x w))
  else if nn w = 0x65 then .ok (.ldRegs (x w))
  else if nn w = 0x75 then .ok (.saveFlags (x w))
  else if nn w = 0x85 then .ok (.loadFlags (x w))
  else .error .unknownFXNN

end Decode

open Decode in
/-- The decoder on one word: primary dispatch on nibble 1 (30_encoding.md R93 to R96). `P_SCROLL_UP` is the only
parameter it needs: `jumpUsesVx`, `extendedInstructionSet` and `P_DXY0_BASE` are read by the meanings of the rows they concern (log 15). -/
def decodeWord (su : ScrollUp) (w : Word) : Except DecodeReject Instr :=
  if n1 w = 0x0 then .ok (family0 su w)
  else if n1 w = 0x1 then .ok (.jp (nnn w))
  else if n1 w = 0x2 then .ok (.call (nnn w))
  else if n1 w = 0x3 then .ok (.seImm (x w) (nn w))
  else if n1 w = 0x4 then .ok (.sneImm (x w) (nn w))
  else if n1 w = 0x5 then if n w = 0 then .ok (.seReg (x w) (y w)) else .error .unknown5XYN
  else if n1 w = 0x6 then .ok (.ldImm (x w) (nn w))
  else if n1 w = 0x7 then .ok (.addImm (x w) (nn w))
  else if n1 w = 0x8 then family8 w
  else if n1 w = 0x9 then if n w = 0 then .ok (.sneReg (x w) (y w)) else .error .unknown9XYN
  else if n1 w = 0xA then .ok (.ldI (nnn w))
  else if n1 w = 0xB then .ok (.jpOff (nnn w))
  else if n1 w = 0xC then .ok (.rnd (x w) (nn w))
  else if n1 w = 0xD then if n w = 0 then .ok (.drw16 (x w) (y w)) else .ok (.drw (x w) (y w) (n w))
  else if n1 w = 0xE then familyE w
  else familyF w

/-- The decoder on bytes: it consumes exactly two, the first the high byte (30_encoding.md R90; 20_memory.md R62). -/
def decode (su : ScrollUp) : List Byte → Except DecodeReject (Instr × List Byte)
  | hi :: lo :: rest =>
    match decodeWord su (hi ++ lo) with
    | .ok i => .ok (i, rest)
    | .error r => .error r
  | [_] | [] => .error .truncated

/-- The word of a well-formed instruction, from the patterns of 30_encoding.md R94 to R96. -/
def encode (su : ScrollUp) : Instr → Word
  | .cls => 0x00E0
  | .ret => 0x00EE
  | .scd n => 0x00C#12 ++ n
  | .scu n => (su.pattern.getD 0x00B) ++ n
  | .scr => 0x00FB
  | .scl => 0x00FC
  | .exit => 0x00FD
  | .low => 0x00FE
  | .high => 0x00FF
  | .sys nnn => 0x0#4 ++ nnn
  | .jp nnn => 0x1#4 ++ nnn
  | .call nnn => 0x2#4 ++ nnn
  | .seImm x nn => 0x3#4 ++ x ++ nn
  | .sneImm x nn => 0x4#4 ++ x ++ nn
  | .seReg x y => 0x5#4 ++ x ++ y ++ 0x0#4
  | .ldImm x nn => 0x6#4 ++ x ++ nn
  | .addImm x nn => 0x7#4 ++ x ++ nn
  | .ldReg x y => 0x8#4 ++ x ++ y ++ 0x0#4
  | .orReg x y => 0x8#4 ++ x ++ y ++ 0x1#4
  | .andReg x y => 0x8#4 ++ x ++ y ++ 0x2#4
  | .xorReg x y => 0x8#4 ++ x ++ y ++ 0x3#4
  | .addReg x y => 0x8#4 ++ x ++ y ++ 0x4#4
  | .subReg x y => 0x8#4 ++ x ++ y ++ 0x5#4
  | .shrReg x y => 0x8#4 ++ x ++ y ++ 0x6#4
  | .subnReg x y => 0x8#4 ++ x ++ y ++ 0x7#4
  | .shlReg x y => 0x8#4 ++ x ++ y ++ 0xE#4
  | .sneReg x y => 0x9#4 ++ x ++ y ++ 0x0#4
  | .ldI nnn => 0xA#4 ++ nnn
  | .jpOff nnn => 0xB#4 ++ nnn
  | .rnd x nn => 0xC#4 ++ x ++ nn
  | .drw x y n => 0xD#4 ++ x ++ y ++ n
  | .drw16 x y => 0xD#4 ++ x ++ y ++ 0x0#4
  | .skp x => 0xE#4 ++ x ++ 0x9E#8
  | .sknp x => 0xE#4 ++ x ++ 0xA1#8
  | .ldVxDt x => 0xF#4 ++ x ++ 0x07#8
  | .ldVxK x => 0xF#4 ++ x ++ 0x0A#8
  | .ldDtVx x => 0xF#4 ++ x ++ 0x15#8
  | .ldStVx x => 0xF#4 ++ x ++ 0x18#8
  | .addI x => 0xF#4 ++ x ++ 0x1E#8
  | .ldF x => 0xF#4 ++ x ++ 0x29#8
  | .ldHF x => 0xF#4 ++ x ++ 0x30#8
  | .ldB x => 0xF#4 ++ x ++ 0x33#8
  | .stRegs x => 0xF#4 ++ x ++ 0x55#8
  | .ldRegs x => 0xF#4 ++ x ++ 0x65#8
  | .saveFlags x => 0xF#4 ++ x ++ 0x75#8
  | .loadFlags x => 0xF#4 ++ x ++ 0x85#8

/-- The mask of the instruction's row in spec/opcode_table.json: the bits the row fixes. -/
def Instr.rowMask : Instr → Word
  | .cls | .ret | .scr | .scl | .exit | .low | .high => 0xFFFF
  | .scd _ | .scu _ => 0xFFF0
  | .sys _ | .jp _ | .call _ | .seImm _ _ | .sneImm _ _ | .ldImm _ _ | .addImm _ _ | .ldI _ | .jpOff _ | .rnd _ _
  | .drw _ _ _ => 0xF000
  | .seReg _ _ | .ldReg _ _ | .orReg _ _ | .andReg _ _ | .xorReg _ _ | .addReg _ _ | .subReg _ _ | .shrReg _ _
  | .subnReg _ _ | .shlReg _ _ | .sneReg _ _ | .drw16 _ _ => 0xF00F
  | .skp _ | .sknp _ | .ldVxDt _ | .ldVxK _ | .ldDtVx _ | .ldStVx _ | .addI _ | .ldF _ | .ldHF _ | .ldB _ | .stRegs _
  | .ldRegs _ | .saveFlags _ | .loadFlags _ => 0xF0FF

/-- The value the row fixes those bits at; SCU's is 00D0 when `P_SCROLL_UP` is 00DN (the row's condition, D22). -/
def Instr.rowMatch (su : ScrollUp) : Instr → Word
  | .cls => 0x00E0
  | .ret => 0x00EE
  | .scd _ => 0x00C0
  | .scu _ => if su = .dN then 0x00D0 else 0x00B0
  | .scr => 0x00FB
  | .scl => 0x00FC
  | .exit => 0x00FD
  | .low => 0x00FE
  | .high => 0x00FF
  | .sys _ => 0x0000
  | .jp _ => 0x1000
  | .call _ => 0x2000
  | .seImm _ _ => 0x3000
  | .sneImm _ _ => 0x4000
  | .seReg _ _ => 0x5000
  | .ldImm _ _ => 0x6000
  | .addImm _ _ => 0x7000
  | .ldReg _ _ => 0x8000
  | .orReg _ _ => 0x8001
  | .andReg _ _ => 0x8002
  | .xorReg _ _ => 0x8003
  | .addReg _ _ => 0x8004
  | .subReg _ _ => 0x8005
  | .shrReg _ _ => 0x8006
  | .subnReg _ _ => 0x8007
  | .shlReg _ _ => 0x800E
  | .sneReg _ _ => 0x9000
  | .ldI _ => 0xA000
  | .jpOff _ => 0xB000
  | .rnd _ _ => 0xC000
  | .drw _ _ _ => 0xD000
  | .drw16 _ _ => 0xD000
  | .skp _ => 0xE09E
  | .sknp _ => 0xE0A1
  | .ldVxDt _ => 0xF007
  | .ldVxK _ => 0xF00A
  | .ldDtVx _ => 0xF015
  | .ldStVx _ => 0xF018
  | .addI _ => 0xF01E
  | .ldF _ => 0xF029
  | .ldHF _ => 0xF030
  | .ldB _ => 0xF033
  | .stRegs _ => 0xF055
  | .ldRegs _ => 0xF065
  | .saveFlags _ => 0xF075
  | .loadFlags _ => 0xF085

/-- The two bytes of a word, the high byte at the lower address (20_memory.md R62). -/
def wordBytes (w : Word) : List Byte := [w.extractLsb' 8 8, w.extractLsb' 0 8]

/-- The instruction read from a row's bits as spec/opcode_table.json numbers them: every row is one 16-bit word,
bit 15 the top bit of the byte fetched first. The parameter `P_SCROLL_UP` is the one of `State.reset`. -/
def decodeTableWord (nbits w : Nat) : Option Instr :=
  match decode Params.atReset.scrollUp (wordBytes (BitVec.ofNat 16 (w % 2 ^ nbits))) with
  | .ok (i, _) => some i
  | .error _ => none

end Sys2Proof
end

