-- ==== Sys2Proof/Machine/Fetch.lean ====
section
/-! DEFINITION. Fetching an instruction (30_encoding.md R101, R102), and placing one where the fetch reads. -/

namespace Sys2Proof.Machine

/-- `Guard()` on a program counter: 0xFFF and above becomes 0x200 (30_encoding.md R102). -/
def guardPc (pc : Word) : Word := if 0xFFF ≤ pc.toNat then 0x200 else pc

namespace State

/-- The address the fetch reads: `PC` after the first guard (R101). -/
def fetchAddress (s : State) : Nat := (guardPc s.pc).toNat

/-- The word fetched, big-endian, read at the time of the Step (R101; 20_memory.md R62, R75). -/
def fetchedWord (s : State) : Word := s.readWord s.fetchAddress

/-- The state after the fetch: `PC` advanced by 2 modulo 4096 and guarded again (R101, D3). -/
def afterFetch (s : State) : State := { s with pc := guardPc (toAddr (s.fetchAddress + 2)) }

/-- The word stored where the next Step fetches, and the dispatcher running, so that the Step fetches it (log 12). -/
def placeWord (s : State) (w : Word) : State := (s.writeBytes s.fetchAddress (wordBytes w)).setExec .running

end State

end Sys2Proof.Machine
end

