-- ==== Sys2Proof/Machine/Engine.lean ====
section
/-! DEFINITION. `RunStep()` and the dispatch of `Step()` on `EXEC` (30_encoding.md R100, R101). -/

namespace Sys2Proof.Machine

/-- `RunStep()`: fetch, advance, decode, execute; an Unknown word sets its diagnostic bit (R101, R97). -/
def runStep (s : State) : Host.Outcome State Fault Refusal :=
  match decodeWord s.params.scrollUp s.fetchedWord with
  | .ok i => exec i s.afterFetch
  | .error _ => .next s.afterFetch.unknownWord

/-- `Step()` (R100): HALTED does nothing, AWAITING_KEY tests `KREL`, RUNNING runs one instruction. -/
def dispatchStep (s : State) : Host.Outcome State Fault Refusal :=
  match s.execState with
  | .halted => .next s
  | .awaitingKey x => .next (s.awaitStep x)
  | .running => runStep s

end Sys2Proof.Machine
end

