-- ==== Sys2Proof/Machine/Step.lean ====
section
/-! DEFINITION. The step of the machine is the host operation `Step()` (30_encoding.md R100; 70_reset_and_hazards.md R300; log 13). -/

namespace Sys2Proof.Machine

/-- One `Step()`. -/
def step (s : State) : Host.Outcome State Fault Refusal := dispatchStep s

/-- The instruction word `w` of `nbits` bits stored where `step` fetches next, with the dispatcher running (log 12). -/
def State.withFetchWord (s : State) (nbits w : Nat) : State := s.placeWord (BitVec.ofNat 16 (w % 2 ^ nbits))

end Sys2Proof.Machine
end

