-- ==== Sys2Proof/Machine/Collaborators.lean ====
section
/-! DEFINITION. The host operations other than Step (70_reset_and_hazards.md R300), each on its own. -/

namespace Sys2Proof.Machine.State

/-- `Tick()`: both timers down by 1, never below 0, in every `EXEC` state (60_exceptions.md R272, D40). -/
def tick (s : State) : State :=
  (s.setDt (BitVec.ofNat 8 (s.dt.toNat - 1))).setSt (BitVec.ofNat 8 (s.st.toNat - 1))

/-- `Input(levels, released)` (10_state.md R35). -/
def input (s : State) (levels : Vector Bool 16) (released : Option Nibble) : State := s.setKeypad levels released

/-- The longest program (20_memory.md R71). -/
def maxProgram : Nat := memorySize - programBase

/-- The state `Load(bytes)` leaves (20_memory.md R71, R72): a program that is too large changes nothing. -/
def load (s : State) (bytes : List Byte) : State :=
  if bytes.length ≤ maxProgram then (s.writeBytes programBase bytes).setLoaded true else s

/-- `ResetProgram()` (70_reset_and_hazards.md R290): the canonical state; `QCFG` and `FLAGSTORE` stay, and so do the parameters and the draw count (log 23). -/
def resetProgram (s : State) : State :=
  { State.initial s.params with qcfg := s.qcfg, flagStore := s.flagStore, draws := s.draws }

/-- `SetPreset(p)` (10_state.md R46). -/
def setPreset (s : State) (p : Preset) : State := s.setQcfg (Quirks.ofPreset p)

/-- `SetQuirk(field, b)` (10_state.md R46). -/
def setQuirk (s : State) (f : QuirkField) (b : Bool) : State := s.setQcfg (s.qcfg.write b f)

/-- `ResetAll()` (70_reset_and_hazards.md R291). -/
def resetAll (s : State) : State := s.resetProgram.setPreset defaultPreset

end Sys2Proof.Machine.State
end

