-- ==== Sys2Proof/Machine/Operations.lean ====
section
/-! DEFINITION. The whole interface of the CORE (70_reset_and_hazards.md R300): every host operation, what it changes, what it replies, and a run as any sequence of them (R301). -/

namespace Sys2Proof.Machine

/-- The host operations of 70_reset_and_hazards.md R300. -/
inductive Operation where
  | step
  | tick
  | input (levels : Vector Bool 16) (released : Option Nibble)
  | load (bytes : List Byte)
  | resetProgram
  | resetAll
  | setPreset (p : Preset)
  | setQuirk (f : QuirkField) (b : Bool)
  | readFlagStore
  | writeFlagStore (bytes : List Byte)
  | readFb
  | readRes
  | readTone
  | readErr
  | readExec
  | readLoaded
  deriving DecidableEq, Repr

/-- What an operation returns to the host (20_memory.md R71, R72; 10_state.md R53; 60_exceptions.md R278). -/
inductive Reply where
  | done
  | ok
  /-- ProgramTooLarge, cause code 1 (60_exceptions.md R261, R262). -/
  | programTooLarge
  | bytes (bs : List Byte)
  | grid (fb : Grid)
  | shape (res : Resolution)
  | tone (b : Bool)
  | errors (e : Byte)
  | dispatcher (e : ExecState)
  | loaded (b : Bool)
  deriving DecidableEq, Repr

/-- The cause code a reply carries (60_exceptions.md R261): code 1 is `Load`'s alone; codes 2 to 5 are the bits of `ERR`. -/
def Reply.causeCode : Reply → Option Nat
  | .programTooLarge => some 1
  | .done | .ok | .bytes _ | .grid _ | .shape _ | .tone _ | .errors _ | .dispatcher _ | .loaded _ => none

/-- The state an operation leaves. -/
def operate (s : State) : Operation → Host.Outcome State Fault Refusal
  | .step => step s
  | .tick => .next s.tick
  | .input levels released => .next (s.input levels released)
  | .load bytes => .next (s.load bytes)
  | .resetProgram => .next s.resetProgram
  | .resetAll => .next s.resetAll
  | .setPreset p => .next (s.setPreset p)
  | .setQuirk f b => .next (s.setQuirk f b)
  | .writeFlagStore bytes => .next (s.setFlagStore bytes)
  | .readFlagStore | .readFb | .readRes | .readTone | .readErr | .readExec | .readLoaded => .next s

/-- What an operation replies. -/
def reply (s : State) : Operation → Reply
  | .load bytes => if bytes.length ≤ State.maxProgram then .ok else .programTooLarge
  | .readFlagStore => .bytes s.flagStore
  | .readFb => .grid s.fb
  | .readRes => .shape s.res
  | .readTone => .tone s.tone
  | .readErr => .errors s.err
  | .readExec => .dispatcher s.execState
  | .readLoaded => .loaded s.loaded
  | .step | .tick | .input _ _ | .resetProgram | .resetAll | .setPreset _ | .setQuirk _ _ | .writeFlagStore _ => .done

/-- A run: any sequence of host operations (70_reset_and_hazards.md R301, D2). -/
def operateAll : List Operation → State → Host.Outcome State Fault Refusal
  | [], s => .next s
  | op :: ops, s =>
    match operate s op with
    | .next t => operateAll ops t
    | .fault r => .fault r
    | .refused r => .refused r

end Sys2Proof.Machine
end

