-- ==== Sys2Proof/Safety.lean ====
section
/-! DEFINITION. The terms claims use: the invariant of every run, the parts of the state and what it is for each to stay unchanged, and which parts an instruction may write. -/

namespace Sys2Proof.Machine

/-- What every operation keeps: the ranges of 10_state.md R23, R24, R26, R36, R49, the canonical form of memory, and the parameter ranges of 00_scope.md R6. -/
structure State.Inv (s : State) : Prop where
  /-- `PC` holds at most 0xFFF (R24). -/
  pc : s.pc.toNat < 0x1000
  /-- `I` holds at most 0xFFF (R23). -/
  i : s.i.toNat < 0x1000
  /-- `0 <= SP <= P_STACK_CAP` (R26). -/
  sp : s.sp ≤ s.params.stackCap
  /-- `STK[0]` to `STK[P_STACK_CAP - 1]` (R26). -/
  stk : s.stk.length = s.params.stackCap
  /-- Every return address is a 12-bit address (R27). -/
  returnAddresses : ∀ a ∈ s.stk, a.toNat < 0x1000
  /-- The grid has `H` rows of `W` pixels (R36). -/
  fb : s.fb.wf s.res = true
  /-- Bits 0, 1, 6 and 7 of `ERR` are always 0 (R49). -/
  err : s.err &&& 0xC3 = 0
  /-- Memory is in its canonical form. -/
  mem : s.mem.wf s.params.fontBase = true
  /-- The parameters are in range (00_scope.md R6). -/
  params : s.params.Valid

/-- The parts of the state (10_state.md R52). -/
inductive Part where
  | registers
  | index
  | counter
  | stack
  | delayTimer
  | soundTimer
  | keypad
  | screen
  | dispatcher
  | quirks
  | fontSet
  | errors
  | loadedMark
  | flagStore
  | memory
  | parameters
  | draws
  deriving DecidableEq, Repr

/-- The part is the same in both states; registers and memory through the model's read of one. -/
def Part.same : Part → State → State → Prop
  | .registers, s, t => ∀ x, t.reg x = s.reg x
  | .index, s, t => t.i = s.i
  | .counter, s, t => t.pc = s.pc
  | .stack, s, t => t.sp = s.sp ∧ t.stk = s.stk
  | .delayTimer, s, t => t.dt = s.dt
  | .soundTimer, s, t => t.st = s.st
  | .keypad, s, t => t.keys = s.keys ∧ t.krel = s.krel
  | .screen, s, t => t.res = s.res ∧ t.fb = s.fb
  | .dispatcher, s, t => t.execState = s.execState
  | .quirks, s, t => t.qcfg = s.qcfg
  | .fontSet, s, t => t.font = s.font
  | .errors, s, t => t.err = s.err
  | .loadedMark, s, t => t.loaded = s.loaded
  | .flagStore, s, t => t.flagStore = s.flagStore
  | .memory, s, t => ∀ a, t.readByte a = s.readByte a
  | .parameters, s, t => t.params = s.params
  | .draws, s, t => t.draws = s.draws

/-- Every part but those listed is the same in both states. -/
def SameBut (changed : List Part) (s t : State) : Prop := ∀ p, p ∉ changed → p.same s t

/-- Every general register but those listed is the same in both states. -/
def SameRegsBut (written : List Nibble) (s t : State) : Prop := ∀ x, x ∉ written → t.reg x = s.reg x

/-- Every byte of memory outside the `n` bytes from address `a` up (modulo 4096) is the same in both states. -/
def SameBytesOutside (a n : Nat) (s t : State) : Prop :=
  ∀ b, (∀ k, k < n → (a + k) % 0x1000 ≠ b % 0x1000) → t.readByte b = s.readByte b

/-- The sprite of `rows` rows and `nb` columns placed at `(x0, y0)`, its origin wrapped and its body clipped, has a set bit at
column `c`, row `r` of the grid (44_display.md R220). -/
def Grid.covered (res : Resolution) (bits : Nat → Nat → Bool) (rows nb x0 y0 c r : Nat) : Bool :=
  decide (c < res.width ∧ r < res.height ∧ y0 % res.height ≤ r ∧ r < y0 % res.height + rows ∧
    x0 % res.width ≤ c ∧ c < x0 % res.width + nb) && bits (r - y0 % res.height) (c - x0 % res.width)

/-- The number of a 16-bit word is one of the Unknown words that 30_encoding.md R98 lists. -/
def unknownNumber (w : Nat) : Bool :=
  ((w / 4096 == 0x5 || w / 4096 == 0x9) && w % 16 != 0) ||
  (w / 4096 == 0x8 && [0x8, 0x9, 0xA, 0xB, 0xC, 0xD, 0xF].contains (w % 16)) ||
  (w / 4096 == 0xE && !([0x9E, 0xA1].contains (w % 256))) ||
  (w / 4096 == 0xF && !([0x07, 0x0A, 0x15, 0x18, 0x1E, 0x29, 0x30, 0x33, 0x55, 0x65, 0x75, 0x85].contains (w % 256)))

/-- The instruction runs, skips the next one exactly when `taken` holds, and changes nothing but `PC`. -/
def SkipsWhen (i : Instr) (s : State) (taken : Prop) : Prop :=
  ∃ t, exec i s = .next t ∧ (taken → t.pc.toNat = (s.pc.toNat + 2) % 0x1000) ∧ (¬taken → t.pc = s.pc) ∧ SameBut [.counter] s t

/-- The parts an instruction's own rule names, beside what the fetch did to `PC`. -/
def writtenParts : Instr → List Part
  | .sys _ => []
  | .jp _ | .jpOff _ | .seImm _ _ | .sneImm _ _ | .seReg _ _ | .sneReg _ _ | .skp _ | .sknp _ => [.counter]
  | .ret | .call _ => [.counter, .stack, .errors]
  | .ldImm _ _ | .addImm _ _ | .ldReg _ _ | .orReg _ _ | .andReg _ _ | .xorReg _ _ | .addReg _ _ | .subReg _ _
  | .shrReg _ _ | .subnReg _ _ | .shlReg _ _ | .ldVxDt _ => [.registers]
  | .rnd _ _ => [.registers, .draws]
  | .ldI _ | .addI _ => [.index]
  | .ldF _ | .ldHF _ => [.index, .memory, .fontSet]
  | .ldB _ => [.memory]
  | .stRegs _ => [.memory, .index]
  | .ldRegs _ => [.registers, .index]
  | .saveFlags _ => [.flagStore]
  | .loadFlags _ => [.registers, .errors]
  | .ldVxK _ => [.registers, .dispatcher]
  | .ldDtVx _ => [.delayTimer]
  | .ldStVx _ => [.soundTimer]
  | .cls | .scd _ | .scu _ | .scr | .scl | .low | .high => [.screen]
  | .drw _ _ _ | .drw16 _ _ => [.screen, .registers]
  | .exit => [.dispatcher]

/-- Register `z` is a destination of the instruction under quirks `q`, or VF where the instruction writes it as a flag (10_state.md R21, R22). -/
def writesReg (q : Quirks) (z : Nibble) : Instr → Bool
  | .ldImm x _ | .addImm x _ | .ldReg x _ | .rnd x _ | .ldVxDt x | .ldVxK x => z == x
  | .orReg x _ | .andReg x _ | .xorReg x _ => z == x || (q.resetFlagOnBitwiseOp && z == 0xF)
  | .addReg x _ | .subReg x _ | .shrReg x _ | .subnReg x _ | .shlReg x _ => z == x || z == 0xF
  | .drw _ _ _ | .drw16 _ _ => z == 0xF
  | .ldRegs x | .loadFlags x => decide (z.toNat ≤ x.toNat)
  | .cls | .ret | .scd _ | .scu _ | .scr | .scl | .exit | .low | .high | .sys _ | .jp _ | .call _ | .seImm _ _
  | .sneImm _ _ | .seReg _ _ | .sneReg _ _ | .ldI _ | .jpOff _ | .skp _ | .sknp _ | .ldDtVx _ | .ldStVx _ | .addI _
  | .ldF _ | .ldHF _ | .ldB _ | .stRegs _ | .saveFlags _ => false

/-- The bytes `needFont` may store to: the region `LoadFont` clears and the table it copies (20_memory.md R69), none when the set is loaded. -/
def fontBlocks (s : State) (f : FontSet) : List (Nat × Nat) :=
  if s.font = f then [] else [(0, fontRegionSize), (s.params.fontBase.address, (s.fontTable f).length)]

/-- The blocks of memory an instruction may store to, each its first address and its length, the addresses modulo 4096
(42_index_memory.md R172 to R175, R179). -/
def storedBlocks (s : State) : Instr → List (Nat × Nat)
  | .ldB _ => [(s.i.toNat, 3)]
  | .stRegs x => [(s.i.toNat, x.toNat + 1)]
  | .ldF _ => fontBlocks s .lo
  | .ldHF _ => if s.qcfg.extendedInstructionSet then fontBlocks s .hi else []
  | .cls | .ret | .scd _ | .scu _ | .scr | .scl | .exit | .low | .high | .sys _ | .jp _ | .call _ | .seImm _ _
  | .sneImm _ _ | .seReg _ _ | .ldImm _ _ | .addImm _ _ | .ldReg _ _ | .orReg _ _ | .andReg _ _ | .xorReg _ _
  | .addReg _ _ | .subReg _ _ | .shrReg _ _ | .subnReg _ _ | .shlReg _ _ | .sneReg _ _ | .ldI _ | .jpOff _ | .rnd _ _
  | .drw _ _ _ | .drw16 _ _ | .skp _ | .sknp _ | .ldVxDt _ | .ldVxK _ | .ldDtVx _ | .ldStVx _ | .addI _ | .ldRegs _
  | .saveFlags _ | .loadFlags _ => []

/-- Every byte outside the listed blocks is the same in both states. -/
def SameBytesOutsideBlocks (blocks : List (Nat × Nat)) (s t : State) : Prop :=
  ∀ b, (∀ p ∈ blocks, ∀ k, k < p.2 → (p.1 + k) % 0x1000 ≠ b % 0x1000) → t.readByte b = s.readByte b

/-- `t` differs from `s` only in what the rule of the instruction writes, and in the parts `fetched`: part by part, and
within the registers, memory, the stack and the screen, register by register, byte by byte, entry by entry, and `RES`. -/
structure WritesOnly (fetched : List Part) (i : Instr) (s t : State) : Prop where
  parts : SameBut (fetched ++ writtenParts i) s t
  registers : ∀ z, writesReg s.qcfg z i = false → t.reg z = s.reg z
  /-- On a memory in canonical form (log 11). -/
  bytes : s.mem.wf s.params.fontBase = true → SameBytesOutsideBlocks (storedBlocks s i) s t
  /-- Only CALL writes an entry, the one at `SP` (10_state.md R27). -/
  entries : ∀ j, ((∃ nnn, i = .call nnn) → j ≠ s.sp) → t.stk[j]? = s.stk[j]?
  entryCount : t.stk.length = s.stk.length
  /-- Only LOW and HIGH switch the resolution (44_display.md R229, R230). -/
  resolution : i ≠ .low → i ≠ .high → t.res = s.res

end Sys2Proof.Machine
end

