-- ==== Sys2Proof/Certificates/Slice0/Obligations.lean ====
section
/-! DEFINITION. The statements for the provers, from the numbered rules of spec/ (70_reset_and_hazards.md R300 gives the operations, 30_encoding.md R101 the step). A clause that rests on a decision the spec marks as its own (D<n>) or on a log entry of the model is named as such in its docstring. -/

open Sys2Proof Sys2Proof.Machine

/-! ## Encoding -/

/-- Words written out from the patterns of 30_encoding.md R94 to R96, at least one of each of the sixteen families (the top nibble),
decode to the instructions they stand for, and two of the Unknown words of R98 decode to none. -/
def Obligations.WrittenWordsDecode : Prop :=
  decodeWord .dN 0x00D7 = .ok (.scu 0x7) ∧ decodeWord .bN 0x00B7 = .ok (.scu 0x7) ∧
  decodeWord .absent 0x00D7 = .ok (.sys 0x0D7) ∧ decodeWord .absent 0x00B7 = .ok (.sys 0x0B7) ∧
  ∀ su : ScrollUp,
    decodeWord su 0x00E0 = .ok .cls ∧ decodeWord su 0x00EE = .ok .ret ∧ decodeWord su 0x00C3 = .ok (.scd 0x3) ∧
    decodeWord su 0x0123 = .ok (.sys 0x123) ∧ decodeWord su 0x1ABC = .ok (.jp 0xABC) ∧
    decodeWord su 0x2345 = .ok (.call 0x345) ∧ decodeWord su 0x3A42 = .ok (.seImm 0xA 0x42) ∧
    decodeWord su 0x4B42 = .ok (.sneImm 0xB 0x42) ∧ decodeWord su 0x5120 = .ok (.seReg 0x1 0x2) ∧
    decodeWord su 0x6A2B = .ok (.ldImm 0xA 0x2B) ∧ decodeWord su 0x7C20 = .ok (.addImm 0xC 0x20) ∧
    decodeWord su 0x8F14 = .ok (.addReg 0xF 0x1) ∧ decodeWord su 0x9120 = .ok (.sneReg 0x1 0x2) ∧
    decodeWord su 0xA2F0 = .ok (.ldI 0x2F0) ∧ decodeWord su 0xB210 = .ok (.jpOff 0x210) ∧
    decodeWord su 0xC30F = .ok (.rnd 0x3 0x0F) ∧ decodeWord su 0xD015 = .ok (.drw 0x0 0x1 0x5) ∧
    decodeWord su 0xD120 = .ok (.drw16 0x1 0x2) ∧ decodeWord su 0xE09E = .ok (.skp 0x0) ∧
    decodeWord su 0xF365 = .ok (.ldRegs 0x3) ∧ decodeWord su 0x5121 = .error .unknown5XYN ∧
    decodeWord su 0xF0FF = .error .unknownFXNN

/-- R90: every instruction is one 16-bit word, and the decoder consumes exactly two bytes, the first the high byte. -/
def Obligations.DecoderConsumesTwoBytes : Prop :=
  ∀ (su : ScrollUp) (hi lo : Byte) (rest : List Byte),
    (∀ i, decodeWord su (hi ++ lo) = .ok i → decode su (hi :: lo :: rest) = .ok (i, rest)) ∧
    (∀ r, decodeWord su (hi ++ lo) = .error r → decode su (hi :: lo :: rest) = .error r)

/-- The bytes of the word of a well-formed instruction decode to that instruction, with every operand, and the bytes after them are left over. -/
def Obligations.DecodeOfEncodeIsTheInstruction : Prop :=
  ∀ (su : ScrollUp) (i : Instr) (rest : List Byte), i.wellFormed su = true →
    decode su (wordBytes (encode su i) ++ rest) = .ok (i, rest)

/-- A word that decodes is the word of the instruction it decodes to, which is well formed, and has the fixed bits of that instruction's row of the opcode table: no two words mean the same instruction. -/
def Obligations.EncodeOfDecodeIsTheWord : Prop :=
  ∀ (su : ScrollUp) (w : Word) (i : Instr), decodeWord su w = .ok i →
    encode su i = w ∧ i.wellFormed su = true ∧ w &&& i.rowMask = i.rowMatch su

/-- The words that decode to nothing are exactly the Unknown words of 30_encoding.md R98. -/
def Obligations.UnknownWordsAreTheListedOnes : Prop :=
  ∀ (su : ScrollUp) (w : Word), (∃ r, decodeWord su w = .error r) ↔ unknownNumber w.toNat = true

/-! ## The step -/

/-- 30_encoding.md R101, with R102's guard where D3 places it: a running CORE fetches two bytes at `PC` after the guard, advances `PC` by 2 modulo 4096, guards it again, and executes the decoded instruction on that state. -/
def Obligations.StepRunsTheDecodedInstruction : Prop :=
  ∀ (s : State) (a b : Nat) (i : Instr), s.execState = .running →
    (a = if 0xFFF ≤ s.pc.toNat then 0x200 else s.pc.toNat) →
    (b = if 0xFFF ≤ (a + 2) % 0x1000 then 0x200 else (a + 2) % 0x1000) →
    decodeWord s.params.scrollUp (s.readByte a ++ s.readByte (a + 1)) = .ok i →
    step s = exec i { s with pc := BitVec.ofNat 16 b }

/-- 30_encoding.md R97 (D3 for the guard's places): an Unknown word is a silent no-op: the Step changes only `PC`, as every fetch does, and bit 2 of `ERR`. -/
def Obligations.UnknownWordIsASilentNoOp : Prop :=
  ∀ (s : State) (a b : Nat) (r : DecodeReject), s.execState = .running →
    (a = if 0xFFF ≤ s.pc.toNat then 0x200 else s.pc.toNat) →
    (b = if 0xFFF ≤ (a + 2) % 0x1000 then 0x200 else (a + 2) % 0x1000) →
    decodeWord s.params.scrollUp (s.readByte a ++ s.readByte (a + 1)) = .error r →
    step s = .next { s with pc := BitVec.ofNat 16 b, err := s.err ||| 0x04 }

/-- 30_encoding.md R103: every handler completes, and a Step changes only the state its instruction's rule names plus `PC`: the parts,
and within them the registers, bytes of memory, stack entries and resolution of `WritesOnly`. An Unknown word's rule names `ERR`.
That CALL, RET and FX85 name `ERR` is D11, that VF is a flag's register D8 (log 18); the draw count of CXNN is the model's own (log 8). -/
def Obligations.StepCompletesAndChangesOnlyWhatItsRuleNames : Prop :=
  ∀ s : State, s.execState = .running → ∃ t, step s = .next t ∧
    (∀ i, decodeWord s.params.scrollUp s.fetchedWord = .ok i → WritesOnly [.counter] i s t) ∧
    (∀ r, decodeWord s.params.scrollUp s.fetchedWord = .error r → SameBut [.counter, .errors] s t)

/-- 43_timers_keys.md R206 (the spec's decision D28): a Step of a waiting CORE fetches nothing; a released key goes to the
register the wait names and ends it, and without one nothing changes. `KREL` is not consumed. -/
def Obligations.WaitingStepTakesTheReleasedKey : Prop :=
  ∀ (s : State) (x : Nibble), s.execState = .awaitingKey x →
    (s.krel = none → step s = .next s) ∧
    (∀ k, s.krel = some k → ∃ t, step s = .next t ∧ (t.reg x).toNat = k.toNat ∧ t.execState = .running ∧
      SameRegsBut [x] s t ∧ SameBut [.registers, .dispatcher] s t)

/-- The model's own probe (DESIGN CHOICE, log 12), not a store of the machine: a word that `withFetchWord` places, with `EXEC` set to RUNNING
also in a waiting or halted state, is the word the next Step fetches (30_encoding.md R101) and runs. -/
def Obligations.StoredWordIsFetchedByTheNextStep : Prop :=
  ∀ (s : State) (w : Nat) (i : Instr), s.Inv → decodeWord s.params.scrollUp (BitVec.ofNat 16 w) = .ok i →
    step (s.withFetchWord 16 w) = exec i (s.withFetchWord 16 w).afterFetch

/-- Every instruction runs in every state, and leaves everything its rule does not write as it was: every part, and every register, byte of
memory, stack entry and the resolution as `WritesOnly` says (10_state.md R21, R22, R27; D8 for VF, D11 for `ERR`; log 8 for the draw count). -/
def Obligations.EveryInstructionCompletesWithinItsFrame : Prop :=
  ∀ (i : Instr) (s : State), ∃ t, exec i s = .next t ∧ WritesOnly [] i s t

/-! ## Control flow -/

/-- R122: JP sets `PC` to its operand and changes nothing else. -/
def Obligations.JpSetsPc : Prop :=
  ∀ (nnn : Addr) (s : State), ∃ t, exec (.jp nnn) s = .next t ∧ t.pc.toNat = nnn.toNat ∧ SameBut [.counter] s t

/-- 40_flow.md R123 with 10_state.md R27 (D11, D13): CALL pushes `PC` and jumps; on a full stack the push is dropped, bit 3 of `ERR` is set and the jump still happens. -/
def Obligations.CallPushesAndJumps : Prop :=
  ∀ (nnn : Addr) (s : State),
    (s.sp < s.params.stackCap → s.stk.length = s.params.stackCap → ∃ t, exec (.call nnn) s = .next t ∧
      t.pc.toNat = nnn.toNat ∧ t.sp = s.sp + 1 ∧ t.stk[s.sp]? = some s.pc ∧ t.stk.length = s.stk.length ∧
      (∀ j, j ≠ s.sp → t.stk[j]? = s.stk[j]?) ∧ SameBut [.counter, .stack] s t) ∧
    (s.params.stackCap ≤ s.sp → ∃ t, exec (.call nnn) s = .next t ∧
      t.pc.toNat = nnn.toNat ∧ t.err = s.err ||| 0x08 ∧ SameBut [.counter, .errors] s t)

/-- 40_flow.md R121 with 10_state.md R28 (D14): RET takes the top entry; on an empty stack it goes to 0x001 and sets bit 4 of `ERR`. -/
def Obligations.RetPopsOrGoesToTheSentinel : Prop :=
  ∀ s : State,
    (∀ a, 0 < s.sp → s.stk[s.sp - 1]? = some a → ∃ t, exec .ret s = .next t ∧
      t.pc.toNat = a.toNat % 0x1000 ∧ t.sp = s.sp - 1 ∧ t.stk = s.stk ∧ SameBut [.counter, .stack] s t) ∧
    (s.sp = 0 → ∃ t, exec .ret s = .next t ∧ t.pc = 0x001 ∧ t.err = s.err ||| 0x10 ∧ SameBut [.counter, .errors] s t)

/-- 40_flow.md R121: RET after CALL restores the `PC` the CALL was executed with, and the stack depth; every entry but the dead slot at the restored `SP`, and everything else, is as before the pair. -/
def Obligations.RetAfterCallRestoresPc : Prop :=
  ∀ (nnn : Addr) (s : State), s.Inv → s.sp < s.params.stackCap → ∃ t u, exec (.call nnn) s = .next t ∧
    exec .ret t = .next u ∧ u.pc = s.pc ∧ u.sp = s.sp ∧ u.stk.length = s.stk.length ∧
    (∀ j, j ≠ s.sp → u.stk[j]? = s.stk[j]?) ∧ SameBut [.stack] s u

/-- 40_flow.md R124 (D6 for the reduction of BXNN): the target is NNN plus V0, or NNN plus `V[X]` with X the top nibble of NNN, modulo 4096. -/
def Obligations.OffsetJumpAddsTheSelectedRegister : Prop :=
  ∀ (nnn : Addr) (s : State), ∃ t, exec (.jpOff nnn) s = .next t ∧
    (s.qcfg.jumpUsesVx = false → t.pc.toNat = (nnn.toNat + (s.reg 0).toNat) % 0x1000) ∧
    (s.qcfg.jumpUsesVx = true → t.pc.toNat = (nnn.toNat + (s.reg (BitVec.ofNat 4 (nnn.toNat / 256))).toNat) % 0x1000) ∧
    SameBut [.counter] s t

/-- 40_flow.md R125 to R128 (D5: no guard inside the instruction; meanings from general knowledge, log 17): the four skips on register and immediate. -/
def Obligations.CompareSkipsAddTwo : Prop :=
  ∀ (x y : Nibble) (nn : Byte) (s : State),
    SkipsWhen (.seImm x nn) s (s.reg x = nn) ∧ SkipsWhen (.sneImm x nn) s (s.reg x ≠ nn) ∧
    SkipsWhen (.seReg x y) s (s.reg x = s.reg y) ∧ SkipsWhen (.sneReg x y) s (s.reg x ≠ s.reg y)

/-- 43_timers_keys.md R203, R204 (D27: bits 3:0 select the key; meanings from general knowledge, log 17): the two skips on a key's level. -/
def Obligations.KeySkipsTestTheLevelArray : Prop :=
  ∀ (x : Nibble) (s : State) (held : Bool), s.keys[(s.reg x).toNat % 16]? = some held →
    SkipsWhen (.skp x) s (held = true) ∧ SkipsWhen (.sknp x) s (held = false)

/-! ## Register file and ALU -/

/-- 41_alu.md R142, R143, R144 (meanings the spec marks from general knowledge, log 17): the loads and the immediate add write `V[X]` and no other register, VF included. -/
def Obligations.LoadsAndImmediateAddWriteVx : Prop :=
  ∀ (x y : Nibble) (nn : Byte) (s : State),
    (∃ t, exec (.ldImm x nn) s = .next t ∧ t.reg x = nn ∧ SameRegsBut [x] s t ∧ SameBut [.registers] s t) ∧
    (∃ t, exec (.addImm x nn) s = .next t ∧ (t.reg x).toNat = ((s.reg x).toNat + nn.toNat) % 256 ∧
      SameRegsBut [x] s t ∧ SameBut [.registers] s t) ∧
    (∃ t, exec (.ldReg x y) s = .next t ∧ t.reg x = s.reg y ∧ SameRegsBut [x] s t ∧ SameBut [.registers] s t)

/-- 41_alu.md R145, R146, R147 (D8 when the destination is VF): the bitwise results, and VF set to 0 last when `resetFlagOnBitwiseOp` is 1, unchanged (unless it is the destination) when 0. -/
def Obligations.BitwiseOpsAndTheirFlagReset : Prop :=
  ∀ (x y : Nibble) (s : State) (i : Instr) (r : Byte),
    (i = .orReg x y ∧ r = s.reg x ||| s.reg y) ∨ (i = .andReg x y ∧ r = s.reg x &&& s.reg y) ∨
      (i = .xorReg x y ∧ r = s.reg x ^^^ s.reg y) →
    ∃ t, exec i s = .next t ∧ SameBut [.registers] s t ∧
      (s.qcfg.resetFlagOnBitwiseOp = true → t.reg 0xF = 0 ∧ (x ≠ 0xF → t.reg x = r) ∧ SameRegsBut [x, 0xF] s t) ∧
      (s.qcfg.resetFlagOnBitwiseOp = false → t.reg x = r ∧ SameRegsBut [x] s t)

/-- 41_alu.md R148 (VF last, which decides the case X = F, is D8 of R141): the sum modulo 256 into `V[X]`, and VF last: 1 exactly when the sum exceeds 255. -/
def Obligations.AddSetsTheCarry : Prop :=
  ∀ (x y : Nibble) (s : State), ∃ t, exec (.addReg x y) s = .next t ∧
    (x ≠ 0xF → (t.reg x).toNat = ((s.reg x).toNat + (s.reg y).toNat) % 256) ∧
    (t.reg 0xF).toNat = (if (s.reg x).toNat + (s.reg y).toNat > 255 then 1 else 0) ∧
    SameRegsBut [x, 0xF] s t ∧ SameBut [.registers] s t

/-- 41_alu.md R149, R151 (VF last, which decides the case X = F, is D8 of R141): the difference modulo 256 into `V[X]`, and VF last: 1 exactly when there is no borrow. -/
def Obligations.SubtractsSetNoBorrow : Prop :=
  ∀ (x y : Nibble) (s : State),
    (∃ t, exec (.subReg x y) s = .next t ∧
      (x ≠ 0xF → ((t.reg x).toNat : Int) = ((s.reg x).toNat - (s.reg y).toNat : Int) % 256) ∧
      (t.reg 0xF).toNat = (if (s.reg x).toNat ≥ (s.reg y).toNat then 1 else 0) ∧
      SameRegsBut [x, 0xF] s t ∧ SameBut [.registers] s t) ∧
    (∃ t, exec (.subnReg x y) s = .next t ∧
      (x ≠ 0xF → ((t.reg x).toNat : Int) = ((s.reg y).toNat - (s.reg x).toNat : Int) % 256) ∧
      (t.reg 0xF).toNat = (if (s.reg y).toNat ≥ (s.reg x).toNat then 1 else 0) ∧
      SameRegsBut [x, 0xF] s t ∧ SameBut [.registers] s t)

/-- 41_alu.md R150, R152 (the polarity of `shiftUsesVy` is 90_conflicts.md C1; VF last, which decides the case X = F, is D8 of R141): the shifts by one of `V[Y]` (`shiftUsesVy` = 0) or `V[X]` (= 1), and VF last: the bit shifted out. -/
def Obligations.ShiftsMoveOneBitOut : Prop :=
  ∀ (x y : Nibble) (s : State) (v : Nat), v = (if s.qcfg.shiftUsesVy then s.reg x else s.reg y).toNat →
    (∃ t, exec (.shrReg x y) s = .next t ∧ (x ≠ 0xF → (t.reg x).toNat = v / 2) ∧ (t.reg 0xF).toNat = v % 2 ∧
      SameRegsBut [x, 0xF] s t ∧ SameBut [.registers] s t) ∧
    (∃ t, exec (.shlReg x y) s = .next t ∧ (x ≠ 0xF → (t.reg x).toNat = 2 * v % 256) ∧ (t.reg 0xF).toNat = v / 128 ∧
      SameRegsBut [x, 0xF] s t ∧ SameBut [.registers] s t)

/-- The result and VF together are the exact arithmetic result of 8XY4, 8XY5, 8XY7, 8XY6 and 8XYE, so no flag or result bit is lost (R140, R148 to R152). -/
def Obligations.ResultAndFlagTogetherAreExact : Prop :=
  ∀ (x y : Nibble) (s t : State) (v : Nat), x ≠ 0xF → v = (if s.qcfg.shiftUsesVy then s.reg x else s.reg y).toNat →
    (exec (.addReg x y) s = .next t → 256 * (t.reg 0xF).toNat + (t.reg x).toNat = (s.reg x).toNat + (s.reg y).toNat) ∧
    (exec (.subReg x y) s = .next t → (t.reg x).toNat + (s.reg y).toNat + 256 * (t.reg 0xF).toNat = (s.reg x).toNat + 256) ∧
    (exec (.subnReg x y) s = .next t → (t.reg x).toNat + (s.reg x).toNat + 256 * (t.reg 0xF).toNat = (s.reg y).toNat + 256) ∧
    (exec (.shrReg x y) s = .next t → 2 * (t.reg x).toNat + (t.reg 0xF).toNat = v) ∧
    (exec (.shlReg x y) s = .next t → 256 * (t.reg 0xF).toNat + (t.reg x).toNat = 2 * v)

/-- 41_alu.md R153 (D29, D50; the byte is free, log 8): CXNN draws one byte, whatever it is, and keeps the bits of NN. -/
def Obligations.RndMasksOneFreeByte : Prop :=
  ∀ (x : Nibble) (nn : Byte) (s : State), ∃ t, exec (.rnd x nn) s = .next t ∧
    (∀ b, Config.rnd s.draws = b → t.reg x = b &&& nn) ∧ t.reg x &&& ~~~nn = 0 ∧ t.draws = s.draws + 1 ∧
    SameRegsBut [x] s t ∧ SameBut [.registers, .draws] s t

/-! ## Index register and memory transfer -/

/-- 42_index_memory.md R170 (from general knowledge, log 17): LD I sets `I` to its operand. -/
def Obligations.LdISetsI : Prop :=
  ∀ (nnn : Addr) (s : State), ∃ t, exec (.ldI nnn) s = .next t ∧ t.i.toNat = nnn.toNat ∧ SameBut [.index] s t

/-- 42_index_memory.md R171 (D26: VF unchanged; from general knowledge, log 17): ADD I wraps at 12 bits. -/
def Obligations.AddIWrapsAtTwelveBits : Prop :=
  ∀ (x : Nibble) (s : State), ∃ t, exec (.addI x) s = .next t ∧
    t.i.toNat = (s.i.toNat + (s.reg x).toNat) % 0x1000 ∧ SameBut [.index] s t

/-- 20_memory.md R69 (D32 for the region): `LoadFont` puts the table at the font base, zeroes the rest of 0x000 to 0x1FF and changes nothing else; selecting a set again changes nothing. -/
def Obligations.LoadFontWritesTheRegionAndIsIdempotent : Prop :=
  ∀ (s : State) (f : FontSet), s.Inv →
    (∀ a, a < 0x1000 → (s.loadFont f).readByte a =
      if s.params.fontBase.address ≤ a ∧ a < s.params.fontBase.address + (s.fontTable f).length then
        (s.fontTable f).getD (a - s.params.fontBase.address) 0
      else if a < 0x200 then 0 else s.readByte a) ∧
    (s.loadFont f).font = f ∧ SameBut [.memory, .fontSet] s (s.loadFont f) ∧ (s.loadFont f).loadFont f = s.loadFont f

/-- 42_index_memory.md R172 (the addition of the font base is the spec's derivation, 90_conflicts.md C6): FX29 points `I` at the low glyph, loading the low font first when the other is loaded. -/
def Obligations.LdFPointsAtTheLowGlyph : Prop :=
  ∀ (x : Nibble) (s : State), ∃ t, exec (.ldF x) s = .next t ∧
    t.i.toNat = s.params.fontBase.address + (s.reg x).toNat % 16 * 5 ∧ t.font = .lo ∧
    (s.font = .lo → SameBut [.index] s t) ∧
    (s.font = .hi → SameBut [.index, .memory, .fontSet] s t ∧ ∀ a, t.readByte a = (s.loadFont .lo).readByte a)

/-- 42_index_memory.md R173 (the base added by 90_conflicts.md C6; D25 for the extension off; the pattern from general knowledge, log 17): FX30 with the extension points `I` at the high glyph, loading the high font first when the other is loaded; without it FX30 does nothing. -/
def Obligations.LdHFPointsAtTheHighGlyph : Prop :=
  ∀ (x : Nibble) (s : State),
    (s.qcfg.extendedInstructionSet = true → ∃ t, exec (.ldHF x) s = .next t ∧
      t.i.toNat = s.params.fontBase.address + (s.reg x).toNat % 16 * 32 ∧ t.font = .hi ∧
      (s.font = .hi → SameBut [.index] s t) ∧
      (s.font = .lo → SameBut [.index, .memory, .fontSet] s t ∧ ∀ a, t.readByte a = (s.loadFont .hi).readByte a)) ∧
    (s.qcfg.extendedInstructionSet = false → exec (.ldHF x) s = .next s)

/-- 42_index_memory.md R174 (from general knowledge, log 17): the three decimal digits of `V[X]` go to `I`, `I` + 1 and `I` + 2 modulo 4096, and no other byte changes. -/
def Obligations.LdBStoresThreeDigits : Prop :=
  ∀ (x : Nibble) (s : State), s.Inv → ∃ t, exec (.ldB x) s = .next t ∧
    (t.readByte s.i.toNat).toNat = (s.reg x).toNat / 100 ∧
    (t.readByte (s.i.toNat + 1)).toNat = (s.reg x).toNat / 10 % 10 ∧
    (t.readByte (s.i.toNat + 2)).toNat = (s.reg x).toNat % 10 ∧
    SameBytesOutside s.i.toNat 3 s t ∧ SameBut [.memory] s t

/-- R175: V0 to VX go to `I` up modulo 4096, no other byte changes, and `I` advances by X + 1 unless `blockTransferAdvancesI` is 1. -/
def Obligations.StoreRegistersWritesTheBlock : Prop :=
  ∀ (x : Nibble) (s : State), s.Inv → ∃ t, exec (.stRegs x) s = .next t ∧
    (∀ y : Nibble, y.toNat ≤ x.toNat → t.readByte (s.i.toNat + y.toNat) = s.reg y) ∧
    SameBytesOutside s.i.toNat (x.toNat + 1) s t ∧
    (s.qcfg.blockTransferAdvancesI = false → t.i.toNat = (s.i.toNat + x.toNat + 1) % 0x1000) ∧
    (s.qcfg.blockTransferAdvancesI = true → t.i = s.i) ∧ SameBut [.memory, .index] s t

/-- R176: V0 to VX take the bytes from `I` up modulo 4096, no other register changes, and `I` advances by X + 1 unless `blockTransferAdvancesI` is 1. -/
def Obligations.LoadRegistersReadsTheBlock : Prop :=
  ∀ (x : Nibble) (s : State), ∃ t, exec (.ldRegs x) s = .next t ∧
    (∀ y : Nibble, t.reg y = if y.toNat ≤ x.toNat then s.readByte (s.i.toNat + y.toNat) else s.reg y) ∧
    (s.qcfg.blockTransferAdvancesI = false → t.i.toNat = (s.i.toNat + x.toNat + 1) % 0x1000) ∧
    (s.qcfg.blockTransferAdvancesI = true → t.i = s.i) ∧ SameBut [.registers, .index] s t

/-- 42_index_memory.md R177, R178 (D38, D47): with the extension, FX75 replaces the flag store by V0 to VX, and FX85 loads V0 to VX from it, absent bytes as 0, and
sets bit 5 of `ERR` on a store of more than 16 bytes; without it (D25) both do nothing. -/
def Obligations.FlagStoreSaveAndLoad : Prop :=
  ∀ (x : Nibble) (s : State),
    (s.qcfg.extendedInstructionSet = true →
      (∃ t, exec (.saveFlags x) s = .next t ∧ t.flagStore.length = x.toNat + 1 ∧
        (∀ y : Nibble, y.toNat ≤ x.toNat → t.flagStore[y.toNat]? = some (s.reg y)) ∧ SameBut [.flagStore] s t) ∧
      (∃ t, exec (.loadFlags x) s = .next t ∧
        (∀ y : Nibble, t.reg y = if y.toNat ≤ x.toNat then s.flagStore.getD y.toNat 0 else s.reg y) ∧
        t.err = (if 16 < s.flagStore.length then s.err ||| 0x20 else s.err) ∧ SameBut [.registers, .errors] s t)) ∧
    (s.qcfg.extendedInstructionSet = false → exec (.saveFlags x) s = .next s ∧ exec (.loadFlags x) s = .next s)

/-- What FX55 stored, FX65 loads back into V0 to VX, whatever the registers held in between; and so FX75 and FX85, without a diagnostic (R175 to R178). -/
def Obligations.LoadAfterStoreRestoresRegisters : Prop :=
  ∀ (x : Nibble) (s : State) (v : Vector Byte 16),
    (s.Inv → ∃ t u, exec (.stRegs x) s = .next t ∧ exec (.ldRegs x) { t with i := s.i, v := v } = .next u ∧
      ∀ y : Nibble, u.reg y = if y.toNat ≤ x.toNat then s.reg y else v[y.toNat]) ∧
    (s.qcfg.extendedInstructionSet = true →
      ∃ t u, exec (.saveFlags x) s = .next t ∧ exec (.loadFlags x) { t with v := v } = .next u ∧ u.err = s.err ∧
        ∀ y : Nibble, u.reg y = if y.toNat ≤ x.toNat then s.reg y else v[y.toNat])

/-! ## Timers and keys -/

/-- 43_timers_keys.md R200, R201, R202 (from general knowledge, log 17; the tone at once by 10_state.md R53, D39): the timer reads and writes; FX18 changes `TONE` at once. -/
def Obligations.TimerInstructionsMoveOneByte : Prop :=
  ∀ (x : Nibble) (s : State),
    (∃ t, exec (.ldVxDt x) s = .next t ∧ t.reg x = s.dt ∧ SameRegsBut [x] s t ∧ SameBut [.registers] s t) ∧
    (∃ t, exec (.ldDtVx x) s = .next t ∧ t.dt = s.reg x ∧ SameBut [.delayTimer] s t) ∧
    (∃ t, exec (.ldStVx x) s = .next t ∧ t.st = s.reg x ∧ (t.tone = true ↔ s.reg x ≠ 0) ∧ SameBut [.soundTimer] s t)

/-- 43_timers_keys.md R205 (D28): FX0A takes a key already released, or begins the wait with its register. -/
def Obligations.WaitForKeyTakesOrWaits : Prop :=
  ∀ (x : Nibble) (s : State),
    (∀ k, s.krel = some k → ∃ t, exec (.ldVxK x) s = .next t ∧ (t.reg x).toNat = k.toNat ∧
      SameRegsBut [x] s t ∧ SameBut [.registers] s t) ∧
    (s.krel = none → ∃ t, exec (.ldVxK x) s = .next t ∧ t.execState = .awaitingKey x ∧ SameBut [.dispatcher] s t)

/-- 60_exceptions.md R272 (D40 for HALTED), 70_reset_and_hazards.md R302: a Tick takes 1 from each timer above 0, in every `EXEC` state, and changes nothing else, so the Ticks of one second take 60 from each timer, never below 0; and any number of Ticks takes that number. -/
def Obligations.TicksOfASecondTakeSixty : Prop :=
  ticksPerSecond = 60 ∧
  ∀ (n : Nat) (s : State), ∃ t, operateAll (List.replicate n .tick) s = .next t ∧ t.dt.toNat = s.dt.toNat - n ∧
    t.st.toNat = s.st.toNat - n ∧ SameBut [.delayTimer, .soundTimer] s t

/-! ## Display -/

/-- R221: CLS clears every pixel of the grid, keeps the resolution and the shape, and changes nothing else. -/
def Obligations.ClsClearsEveryPixel : Prop :=
  ∀ s : State, ∃ t, exec .cls s = .next t ∧ (∀ c r, t.pixel c r = false) ∧ t.res = s.res ∧ t.fb.wf s.res = true ∧
    SameBut [.screen] s t

/-- 44_display.md R220, R222, R223 (D15, D16, D17, D19): DRW, and DRW16 with the extension, toggle exactly the pixels where the sprite at `I`,
placed at `(V[X] mod W, V[Y] mod H)` and clipped, has a set bit; VF is 1 when one of them was set before, else 0. -/
def Obligations.DrawTogglesTheCoveredPixels : Prop :=
  ∀ (x y n : Nibble) (s : State) (i : Instr) (bits : Nat → Nat → Bool) (rows columns : Nat), s.Inv →
    (i = .drw x y n ∧ rows = n.toNat ∧ columns = 8 ∧
        bits = fun row col => (s.readByte (s.i.toNat + row)).getLsbD (7 - col)) ∨
      (i = .drw16 x y ∧ s.qcfg.extendedInstructionSet = true ∧ rows = 16 ∧ columns = 16 ∧
        bits = fun row col => (s.readByte (s.i.toNat + 2 * row) ++ s.readByte (s.i.toNat + 2 * row + 1)).getLsbD (15 - col)) →
    ∃ t, exec i s = .next t ∧
      (∀ c r, t.pixel c r = (s.pixel c r ^^ Grid.covered s.res bits rows columns (s.reg x).toNat (s.reg y).toNat c r)) ∧
      (t.reg 0xF = 0 ∨ t.reg 0xF = 1) ∧
      (t.reg 0xF = 1 ↔ ∃ c r, Grid.covered s.res bits rows columns (s.reg x).toNat (s.reg y).toNat c r = true ∧ s.pixel c r = true) ∧
      t.res = s.res ∧ SameRegsBut [0xF] s t ∧ SameBut [.screen, .registers] s t

/-- 44_display.md R231 (the spec's derivation from R220): the same draw at the same position twice, DRW or DRW16 with the extension, restores
every pixel, also with clipping. The second draw sets VF, by R220, exactly when a covered pixel was clear before the first; on a grid that is
clear under the sprite this is R231's "at least one unclipped set bit" (log 24). -/
def Obligations.DrawingTwiceRestoresTheScreen : Prop :=
  ∀ (x y n : Nibble) (s t u : State) (i : Instr) (bits : Nat → Nat → Bool) (rows columns : Nat) (covered : Nat → Nat → Bool), s.Inv →
    (i = .drw x y n ∧ rows = n.toNat ∧ columns = 8 ∧
        bits = fun row col => (s.readByte (s.i.toNat + row)).getLsbD (7 - col)) ∨
      (i = .drw16 x y ∧ s.qcfg.extendedInstructionSet = true ∧ rows = 16 ∧ columns = 16 ∧
        bits = fun row col => (s.readByte (s.i.toNat + 2 * row) ++ s.readByte (s.i.toNat + 2 * row + 1)).getLsbD (15 - col)) →
    (covered = fun c r => Grid.covered s.res bits rows columns (s.reg x).toNat (s.reg y).toNat c r) →
    exec i s = .next t → t.reg x = s.reg x → t.reg y = s.reg y → exec i t = .next u →
    (∀ c r, u.pixel c r = s.pixel c r) ∧
    (u.reg 0xF = 1 ↔ ∃ c r, covered c r = true ∧ s.pixel c r = false) ∧
    ((∀ c r, covered c r = true → s.pixel c r = false) → (u.reg 0xF = 1 ↔ ∃ c r, covered c r = true))

/-- 44_display.md R224 (the open parameter `P_DXY0_BASE`, D18): DXY0 without the extension does nothing, or only sets VF to 0. -/
def Obligations.Dxy0WithoutTheExtension : Prop :=
  ∀ (x y : Nibble) (s : State), s.qcfg.extendedInstructionSet = false →
    (s.params.dxy0Base = .noop → exec (.drw16 x y) s = .next s) ∧
    (s.params.dxy0Base = .zeroRows → ∃ t, exec (.drw16 x y) s = .next t ∧ t.reg 0xF = 0 ∧ SameRegsBut [0xF] s t ∧
      SameBut [.registers] s t)

/-- 44_display.md R225 to R228 (D20, D21, D22; log 17): the scrolls with the extension move every pixel of the grid and fill with 0. -/
def Obligations.ScrollsMoveEveryPixel : Prop :=
  ∀ (n : Nibble) (s : State), s.qcfg.extendedInstructionSet = true →
    (∃ t, exec (.scd n) s = .next t ∧ t.res = s.res ∧ t.fb.wf s.res = true ∧ SameBut [.screen] s t ∧
      ∀ c r, c < s.res.width → r < s.res.height → t.pixel c r = (decide (n.toNat ≤ r) && s.pixel c (r - n.toNat))) ∧
    (∃ t, exec (.scu n) s = .next t ∧ t.res = s.res ∧ t.fb.wf s.res = true ∧ SameBut [.screen] s t ∧
      ∀ c r, c < s.res.width → r < s.res.height →
        t.pixel c r = (decide (r + n.toNat < s.res.height) && s.pixel c (r + n.toNat))) ∧
    (∃ t, exec .scr s = .next t ∧ t.res = s.res ∧ t.fb.wf s.res = true ∧ SameBut [.screen] s t ∧
      ∀ c r, c < s.res.width → r < s.res.height → t.pixel c r = (decide (4 ≤ c) && s.pixel (c - 4) r)) ∧
    (∃ t, exec .scl s = .next t ∧ t.res = s.res ∧ t.fb.wf s.res = true ∧ SameBut [.screen] s t ∧
      ∀ c r, c < s.res.width → r < s.res.height → t.pixel c r = (decide (c + 4 < s.res.width) && s.pixel (c + 4) r))

/-- 44_display.md R229, R230 (D23; the shapes from general knowledge, log 17): LOW and HIGH with the extension select their shape, 32 rows of 64
pixels and 64 rows of 128 (10_state.md R36), and clear it, also when it is the current one. -/
def Obligations.ModeSwitchesSelectAndClear : Prop :=
  ∀ s : State, s.qcfg.extendedInstructionSet = true →
    (∃ t, exec .low s = .next t ∧ t.res = .r64x32 ∧ t.fb.length = 32 ∧ (∀ row ∈ t.fb, row.length = 64) ∧
      t.fb.wf .r64x32 = true ∧ (∀ c r, t.pixel c r = false) ∧ SameBut [.screen] s t) ∧
    (∃ t, exec .high s = .next t ∧ t.res = .r128x64 ∧ t.fb.length = 64 ∧ (∀ row ∈ t.fb, row.length = 128) ∧
      t.fb.wf .r128x64 = true ∧ (∀ c r, t.pixel c r = false) ∧ SameBut [.screen] s t)

/-! ## System -/

/-- 45_system.md R250 (D24): EXIT with the extension halts; a halted CORE's Step changes nothing, and no operation but a reset leaves HALTED. -/
def Obligations.ExitHaltsUntilReset : Prop :=
  (∀ s : State, s.qcfg.extendedInstructionSet = true → ∃ t, exec .exit s = .next t ∧ t.execState = .halted ∧
    SameBut [.dispatcher] s t) ∧
  (∀ s : State, s.execState = .halted → step s = .next s) ∧
  (∀ (s t : State) (op : Operation), s.execState = .halted → op ≠ .resetProgram → op ≠ .resetAll →
    operate s op = .next t → t.execState = .halted)

/-- 40_flow.md R120 (D10), 45_system.md R251 (D25): SYS always, and with the extension off every SUPER-CHIP form but DXY0, changes no state at all, `ERR` included. -/
def Obligations.SysAndDisabledFormsDoNothing : Prop :=
  ∀ s : State, (∀ nnn : Addr, exec (.sys nnn) s = .next s) ∧
    (s.qcfg.extendedInstructionSet = false → ∀ (x n : Nibble) (i : Instr),
      i ∈ [.scd n, .scu n, .scr, .scl, .exit, .low, .high, .ldHF x, .saveFlags x, .loadFlags x] → exec i s = .next s)

/-- No Step writes the keypad, the quirks, the loaded mark or a parameter (10_state.md R33, R47, R50; 45_system.md R253: derived by the spec). -/
def Obligations.StepNeverWritesTheHostsState : Prop :=
  ∀ s t : State, step s = .next t →
    t.keys = s.keys ∧ t.krel = s.krel ∧ t.qcfg = s.qcfg ∧ t.loaded = s.loaded ∧ t.params = s.params

/-- Only FX0A with no key released, a waiting Step with one, and EXIT with the extension change `EXEC` in a Step (10_state.md R39; D24, D28). -/
def Obligations.OnlyWaitExitAndReleaseChangeExec : Prop :=
  ∀ s t : State, step s = .next t → t.execState ≠ s.execState →
    (∃ x, s.execState = .running ∧ decodeWord s.params.scrollUp s.fetchedWord = .ok (.ldVxK x) ∧ s.krel = none ∧
      t.execState = .awaitingKey x) ∨
    (s.execState = .running ∧ decodeWord s.params.scrollUp s.fetchedWord = .ok .exit ∧
      s.qcfg.extendedInstructionSet = true ∧ t.execState = .halted) ∨
    (∃ x k, s.execState = .awaitingKey x ∧ s.krel = some k ∧ t.execState = .running)

/-- `ERR` is sticky: no operation but a reset clears a bit of it (10_state.md R49; 60_exceptions.md R263; D11). -/
def Obligations.ErrorBitsStayUntilReset : Prop :=
  ∀ (s t : State) (op : Operation), op ≠ .resetProgram → op ≠ .resetAll → operate s op = .next t →
    s.err &&& t.err = s.err

/-- No Step reads `ERR`, `LOADED` or the CPU rate (10_state.md R49, R50; 00_scope.md R6; D11, D41, D44): a Step ors into `ERR` bits that do not
depend on them, and whatever they are, the rest of what it does is the same. -/
def Obligations.StepIgnoresErrorsLoadedMarkAndRate : Prop :=
  ∀ s t : State, step s = .next t → ∃ r : Byte, t.err = s.err ||| r ∧ ∀ (e : Byte) (b : Bool) (hz : Nat),
    step { s with err := e, loaded := b, params := { s.params with cpuHz := hz } } =
      .next { t with err := e ||| r, loaded := b, params := { t.params with cpuHz := hz } }

/-! ## Host operations and reset -/

/-- 70_reset_and_hazards.md R290, R292 (D33 to D35; the draw count is the model's own, log 23): `ResetProgram` gives every piece of state its canonical value and keeps `QCFG`, `FLAGSTORE` and the parameters. -/
def Obligations.ResetProgramGivesTheCanonicalState : Prop :=
  ∀ s : State, ∃ t, operate s .resetProgram = .next t ∧
    (∀ x, t.reg x = 0) ∧ t.i = 0x200 ∧ t.pc = 0x200 ∧ t.sp = 0 ∧ t.stk.length = s.params.stackCap ∧ (∀ a ∈ t.stk, a = 0) ∧
    t.dt = 0 ∧ t.st = 0 ∧ (∀ k, t.key k = false) ∧ t.krel = none ∧
    t.res = s.params.initRes ∧ t.fb.wf s.params.initRes = true ∧ (∀ c r, t.pixel c r = false) ∧
    t.execState = .running ∧ t.font = .lo ∧ t.err = 0 ∧ t.loaded = false ∧
    (∀ a, a < 0x1000 → t.readByte a =
      if s.params.fontBase.address ≤ a ∧ a < s.params.fontBase.address + 80 then loFont.getD (a - s.params.fontBase.address) 0 else 0) ∧
    t.qcfg = s.qcfg ∧ t.flagStore = s.flagStore ∧ t.params = s.params

/-- 70_reset_and_hazards.md R291 (D35, D36): `ResetAll` is `ResetProgram` and then the CHIP-8 preset, whose register view is 0x08; and it is the state right after reset but for the flag store and the draw count. -/
def Obligations.ResetAllAlsoSelectsTheChip8Preset : Prop :=
  ∀ s : State, ∃ t u, operate s .resetProgram = .next t ∧ operate s .resetAll = .next u ∧
    SameBut [.quirks] t u ∧ u.qcfg.toByte = 0x08 ∧
    u = { State.initial s.params with flagStore := s.flagStore, draws := s.draws }

/-- R72, R262: `Load` of more than 3584 bytes answers ProgramTooLarge (cause code 1) and changes no state at all, `ERR` included;
and only such a `Load` answers so. -/
def Obligations.LoadRejectsWhatIsTooLarge : Prop :=
  ∀ s : State,
    (∀ bytes : List Byte, 3584 < bytes.length → reply s (.load bytes) = .programTooLarge ∧
      (reply s (.load bytes)).causeCode = some 1 ∧ operate s (.load bytes) = .next s) ∧
    (∀ op : Operation, reply s op = .programTooLarge → ∃ bytes, op = .load bytes ∧ 3584 < bytes.length)

/-- 20_memory.md R71 (D42, D48): `Load` of at most 3584 bytes puts them at 0x200 up, sets `LOADED`, and changes nothing else. -/
def Obligations.LoadPlacesTheProgram : Prop :=
  ∀ (s : State) (bytes : List Byte), s.Inv → bytes.length ≤ 3584 → ∃ t, operate s (.load bytes) = .next t ∧
    reply s (.load bytes) = .ok ∧ (∀ k, k < bytes.length → t.readByte (0x200 + k) = bytes.getD k 0) ∧ t.loaded = true ∧
    SameBytesOutside 0x200 bytes.length s t ∧ SameBut [.memory, .loadedMark] s t

/-- 10_state.md R35, R40, R46, R53, 60_exceptions.md R278 (D36, D39, D43, D49, D51): the other host operations write what they name and nothing else, and the reads report it and change nothing (70_reset_and_hazards.md R300). -/
def Obligations.HostWritesAndReadsAreExact : Prop :=
  ∀ (s : State) (levels : Vector Bool 16) (released : Option Nibble) (f : QuirkField) (b : Bool) (bytes : List Byte),
    (∃ t, operate s (.input levels released) = .next t ∧ t.keys = levels ∧ t.krel = released ∧ SameBut [.keypad] s t) ∧
    (∃ t, operate s (.setPreset .chip8) = .next t ∧ t.qcfg.toByte = 0x08 ∧ SameBut [.quirks] s t) ∧
    (∃ t, operate s (.setPreset .schip) = .next t ∧ t.qcfg.toByte = 0x17 ∧ SameBut [.quirks] s t) ∧
    (∃ t, operate s (.setQuirk f b) = .next t ∧ SameBut [.quirks] s t ∧
      ∀ k, k < 8 → t.qcfg.toByte.getLsbD k =
        if k = (match f with
          | .shiftUsesVy => 0
          | .jumpUsesVx => 1
          | .blockTransferAdvancesI => 2
          | .resetFlagOnBitwiseOp => 3
          | .extendedInstructionSet => 4) then b else s.qcfg.toByte.getLsbD k) ∧
    (∃ t, operate s (.writeFlagStore bytes) = .next t ∧ t.flagStore = bytes ∧ SameBut [.flagStore] s t ∧
      reply t .readFlagStore = .bytes bytes) ∧
    reply s .readFlagStore = .bytes s.flagStore ∧ reply s .readFb = .grid s.fb ∧ reply s .readRes = .shape s.res ∧ reply s .readTone = .tone (decide (s.st ≠ 0)) ∧
    reply s .readErr = .errors s.err ∧ reply s .readExec = .dispatcher s.execState ∧ reply s .readLoaded = .loaded s.loaded ∧
    (∀ read ∈ [Operation.readFlagStore, .readFb, .readRes, .readTone, .readErr, .readExec, .readLoaded], operate s read = .next s)

/-! ## Invariants -/

/-- Two memories in canonical form that read alike at every address are the same list: equal memories are equal data. -/
def Obligations.CanonicalMemoriesThatReadAlikeAreEqual : Prop :=
  ∀ (base : FontBase) (m m' : Memory), m.wf base = true → m'.wf base = true →
    (∀ a, a < 0x1000 → m.read base a = m'.read base a) → m = m'

/-- The state after reset meets the invariant, whatever the parameters in their ranges; `State.reset` itself does. -/
def Obligations.ResetMeetsTheInvariant : Prop :=
  (∀ p : Params, p.Valid → (State.initial p).Inv) ∧ State.reset.Inv

/-- Every Step keeps the invariant: `PC` and `I` within 12 bits, the stack within its capacity with 12-bit entries, the grid in its
shape, the reserved bits of `ERR` 0, memory canonical, the parameters in range. -/
def Obligations.StepKeepsTheInvariant : Prop :=
  ∀ s t : State, s.Inv → step s = .next t → t.Inv

/-- Every run, whatever the interleaving of Steps, Ticks and host operations (70_reset_and_hazards.md R301, D2), goes through without a fault or a refusal
(60_exceptions.md R260; log 20), keeps the parameters, and keeps the invariant. -/
def Obligations.EveryRunCompletesAndKeepsTheInvariant : Prop :=
  ∀ (ops : List Operation) (s : State), ∃ t, operateAll ops s = .next t ∧ t.params = s.params ∧ (s.Inv → t.Inv)

/-! ## Constants -/

/-- The numbers that the other statements name through the model's own definitions, written out: the two font bases of 20_memory.md R66, the
80 bytes of R67 (which the spec takes from general knowledge: PRESUMED, log 16) at either base after reset, and the three shapes of 10_state.md R36. -/
def Obligations.FontAndShapesAreThoseWrittenOut : Prop :=
  FontBase.at000.address = 0x000 ∧ FontBase.at050.address = 0x050 ∧
  loFont =
    [0xF0, 0x90, 0x90, 0x90, 0xF0] ++ [0x20, 0x60, 0x20, 0x20, 0x70] ++ [0xF0, 0x10, 0xF0, 0x80, 0xF0] ++
    [0xF0, 0x10, 0xF0, 0x10, 0xF0] ++ [0x90, 0x90, 0xF0, 0x10, 0x10] ++ [0xF0, 0x80, 0xF0, 0x10, 0xF0] ++
    [0xF0, 0x80, 0xF0, 0x90, 0xF0] ++ [0xF0, 0x10, 0x20, 0x40, 0x40] ++ [0xF0, 0x90, 0xF0, 0x90, 0xF0] ++
    [0xF0, 0x90, 0xF0, 0x10, 0xF0] ++ [0xF0, 0x90, 0xF0, 0x90, 0x90] ++ [0xE0, 0x90, 0xE0, 0x90, 0xE0] ++
    [0xF0, 0x80, 0x80, 0x80, 0xF0] ++ [0xE0, 0x90, 0x90, 0x90, 0xE0] ++ [0xF0, 0x80, 0xF0, 0x80, 0xF0] ++
    [0xF0, 0x80, 0xF0, 0x80, 0x80] ∧
  (∀ (p : Params) (k : Nat), k < 80 →
    (State.initial { p with fontBase := .at000 }).readByte k = loFont.getD k 0 ∧
    (State.initial { p with fontBase := .at050 }).readByte (0x050 + k) = loFont.getD k 0) ∧
  ∀ g : Grid,
    (g.wf .r64x32 = true ↔ g.length = 32 ∧ ∀ row ∈ g, row.length = 64) ∧
    (g.wf .r64x64 = true ↔ g.length = 64 ∧ ∀ row ∈ g, row.length = 64) ∧
    (g.wf .r128x64 = true ↔ g.length = 64 ∧ ∀ row ∈ g, row.length = 128)
end

