-- ==== Sys2Proof/Laws/Encoding.lean ====
section
/-! SUPPORT. The fields of a word built by appending its parts, and the number such a word stands for: what the proofs about `encode` and `decodeWord` cite instead of bit arithmetic. -/

namespace Sys2Proof

theorem toNat_append_mul {v w : Nat} (a : BitVec v) (b : BitVec w) : (a ++ b).toNat = a.toNat * 2 ^ w + b.toNat := by
  rw [BitVec.toNat_append, ← Nat.shiftLeft_add_eq_or_of_lt b.isLt, Nat.shiftLeft_eq]

/-- One row of a decoding table: the condition holds and the row answers, or the rows after it answer. -/
theorem ite_cases {α : Type} {c : Prop} [Decidable c] {a b r : α} (h : (if c then a else b) = r) :
    (c ∧ a = r) ∨ (¬c ∧ b = r) := by
  by_cases hc : c
  · exact .inl ⟨hc, by rwa [if_pos hc] at h⟩
  · exact .inr ⟨hc, by rwa [if_neg hc] at h⟩

/-! Masking a word of each format, by its parts. -/

theorem append_and_append {v w : Nat} (a c : BitVec v) (b d : BitVec w) : (a ++ b) &&& (c ++ d) = (a &&& c) ++ (b &&& d) := by
  ext i hi
  simp [BitVec.getElem_append]

theorem and_ones {w : Nat} (a : BitVec w) : a &&& BitVec.allOnes w = a := BitVec.and_allOnes

theorem mask_fNNN (a : Nibble) (b : Addr) : (a ++ b : Word) &&& 0xF000#16 = a ++ 0#12 := by
  refine (append_and_append a 0xF#4 b 0#12).trans ?_
  rw [show a &&& 0xF#4 = a from and_ones a, BitVec.and_zero]

theorem mask_fN (a : BitVec 12) (b : Nibble) : (a ++ b : Word) &&& 0xFFF0#16 = a ++ 0#4 := by
  refine (append_and_append a 0xFFF#12 b 0#4).trans ?_
  rw [show a &&& 0xFFF#12 = a from and_ones a, BitVec.and_zero]

theorem mask_fXNN (a b : Nibble) (c : Byte) : (a ++ b ++ c : Word) &&& 0xF000#16 = a ++ 0#4 ++ 0#8 := by
  refine (append_and_append (a ++ b) (0xF#4 ++ 0#4) c 0#8).trans ?_
  rw [append_and_append, show a &&& 0xF#4 = a from and_ones a, BitVec.and_zero, BitVec.and_zero]

theorem mask_fX (a b : Nibble) (c : Byte) : (a ++ b ++ c : Word) &&& 0xF0FF#16 = a ++ 0#4 ++ c := by
  refine (append_and_append (a ++ b) (0xF#4 ++ 0#4) c 0xFF#8).trans ?_
  rw [append_and_append, show a &&& 0xF#4 = a from and_ones a, show c &&& 0xFF#8 = c from and_ones c, BitVec.and_zero]

theorem mask_fXY (a b c d : Nibble) : (a ++ b ++ c ++ d : Word) &&& 0xF00F#16 = a ++ 0#4 ++ 0#4 ++ d := by
  refine (append_and_append (a ++ b ++ c) (0xF#4 ++ 0#4 ++ 0#4) d 0xF#4).trans ?_
  rw [append_and_append, append_and_append, show a &&& 0xF#4 = a from and_ones a, show d &&& 0xF#4 = d from and_ones d,
    BitVec.and_zero, BitVec.and_zero]

theorem mask_fXYN (a b c d : Nibble) : (a ++ b ++ c ++ d : Word) &&& 0xF000#16 = a ++ 0#4 ++ 0#4 ++ 0#4 := by
  refine (append_and_append (a ++ b ++ c) (0xF#4 ++ 0#4 ++ 0#4) d 0#4).trans ?_
  rw [append_and_append, append_and_append, show a &&& 0xF#4 = a from and_ones a, BitVec.and_zero, BitVec.and_zero,
    BitVec.and_zero]

namespace Decode

/-! Each field as a number. -/

theorem n1_toNat (w : Word) : (n1 w).toNat = w.toNat / 4096 % 16 := by
  simp [n1, Nat.shiftRight_eq_div_pow]

theorem x_toNat (w : Word) : (x w).toNat = w.toNat / 256 % 16 := by
  simp [x, Nat.shiftRight_eq_div_pow]

theorem y_toNat (w : Word) : (y w).toNat = w.toNat / 16 % 16 := by
  simp [y, Nat.shiftRight_eq_div_pow]

theorem n_toNat (w : Word) : (n w).toNat = w.toNat % 16 := by
  simp [n]

theorem nn_toNat (w : Word) : (nn w).toNat = w.toNat % 256 := by
  simp [nn]

theorem nnn_toNat (w : Word) : (nnn w).toNat = w.toNat % 4096 := by
  simp [nnn]

theorem high12_toNat (w : Word) : (high12 w).toNat = w.toNat / 16 % 4096 := by
  simp [high12, Nat.shiftRight_eq_div_pow]

/-! The number of a word of each format (30_encoding.md R92). -/

theorem toNat_fNNN (a : Nibble) (b : Addr) : BitVec.toNat (w := 16) (a ++ b) = a.toNat * 4096 + b.toNat :=
  toNat_append_mul a b

theorem toNat_fN (a : BitVec 12) (b : Nibble) : BitVec.toNat (w := 16) (a ++ b) = a.toNat * 16 + b.toNat :=
  toNat_append_mul a b

theorem toNat_fXNN (a b : Nibble) (c : Byte) : BitVec.toNat (w := 16) (a ++ b ++ c) = a.toNat * 4096 + b.toNat * 256 + c.toNat := by
  refine (toNat_append_mul (a ++ b) c).trans ?_
  rw [toNat_append_mul]
  omega

theorem toNat_fXYN (a b c d : Nibble) :
    BitVec.toNat (w := 16) (a ++ b ++ c ++ d) = a.toNat * 4096 + b.toNat * 256 + c.toNat * 16 + d.toNat := by
  refine (toNat_append_mul (a ++ b ++ c) d).trans ?_
  rw [toNat_append_mul, toNat_append_mul]
  omega

/-! The fields of a word of each format. -/

theorem n1_fNNN (a : Nibble) (b : Addr) : n1 (a ++ b) = a := by
  apply BitVec.eq_of_toNat_eq; rw [n1_toNat, toNat_fNNN]; omega

theorem nnn_fNNN (a : Nibble) (b : Addr) : nnn (a ++ b) = b := by
  apply BitVec.eq_of_toNat_eq; rw [nnn_toNat, toNat_fNNN]; omega

theorem high12_fN (a : BitVec 12) (b : Nibble) : high12 (a ++ b) = a := by
  apply BitVec.eq_of_toNat_eq; rw [high12_toNat, toNat_fN]; omega

theorem n_fN (a : BitVec 12) (b : Nibble) : n (a ++ b) = b := by
  apply BitVec.eq_of_toNat_eq; rw [n_toNat, toNat_fN]; omega

theorem n1_fXNN (a b : Nibble) (c : Byte) : n1 (a ++ b ++ c) = a := by
  apply BitVec.eq_of_toNat_eq; rw [n1_toNat, toNat_fXNN]; omega

theorem x_fXNN (a b : Nibble) (c : Byte) : x (a ++ b ++ c) = b := by
  apply BitVec.eq_of_toNat_eq; rw [x_toNat, toNat_fXNN]; omega

theorem nn_fXNN (a b : Nibble) (c : Byte) : nn (a ++ b ++ c) = c := by
  apply BitVec.eq_of_toNat_eq; rw [nn_toNat, toNat_fXNN]; omega

theorem n1_fXYN (a b c d : Nibble) : n1 (a ++ b ++ c ++ d) = a := by
  apply BitVec.eq_of_toNat_eq; rw [n1_toNat, toNat_fXYN]; omega

theorem x_fXYN (a b c d : Nibble) : x (a ++ b ++ c ++ d) = b := by
  apply BitVec.eq_of_toNat_eq; rw [x_toNat, toNat_fXYN]; omega

theorem y_fXYN (a b c d : Nibble) : y (a ++ b ++ c ++ d) = c := by
  apply BitVec.eq_of_toNat_eq; rw [y_toNat, toNat_fXYN]; omega

theorem n_fXYN (a b c d : Nibble) : n (a ++ b ++ c ++ d) = d := by
  apply BitVec.eq_of_toNat_eq; rw [n_toNat, toNat_fXYN]; omega

/-! A word is made of its fields. -/

theorem eq_fNNN (w : Word) : w = n1 w ++ nnn w := by
  apply BitVec.eq_of_toNat_eq; rw [toNat_fNNN, n1_toNat, nnn_toNat]; omega

theorem eq_fN (w : Word) : w = high12 w ++ n w := by
  apply BitVec.eq_of_toNat_eq; rw [toNat_fN, high12_toNat, n_toNat]; omega

theorem eq_fXNN (w : Word) : w = n1 w ++ x w ++ nn w := by
  apply BitVec.eq_of_toNat_eq; rw [toNat_fXNN, n1_toNat, x_toNat, nn_toNat]; omega

theorem eq_fXYN (w : Word) : w = n1 w ++ x w ++ y w ++ n w := by
  apply BitVec.eq_of_toNat_eq; rw [toNat_fXYN, n1_toNat, x_toNat, y_toNat, n_toNat]; omega

end Decode

/-- The two bytes of a word put together again. -/
theorem bytes_append (w : Word) : w.extractLsb' 8 8 ++ w.extractLsb' 0 8 = w := by
  apply BitVec.eq_of_toNat_eq
  refine (toNat_append_mul _ _).trans ?_
  simp only [BitVec.extractLsb'_toNat, Nat.shiftRight_eq_div_pow]
  omega

end Sys2Proof
end

