-- ==== Sys2Proof/Laws/State.lean ====
section
/-! SUPPORT. One lemma per field per update of State, and per accessor per update that leaves it alone: no later proof unfolds a record update. -/

namespace Sys2Proof.Machine.State

variable (s : State)

/-! setReg -/

@[simp] theorem setReg_v (x : Nibble) (b : Byte) : (s.setReg x b).v = s.v.set x.toNat b x.isLt := rfl
@[simp] theorem setReg_i (x : Nibble) (b : Byte) : (s.setReg x b).i = s.i := rfl
@[simp] theorem setReg_pc (x : Nibble) (b : Byte) : (s.setReg x b).pc = s.pc := rfl
@[simp] theorem setReg_sp (x : Nibble) (b : Byte) : (s.setReg x b).sp = s.sp := rfl
@[simp] theorem setReg_stk (x : Nibble) (b : Byte) : (s.setReg x b).stk = s.stk := rfl
@[simp] theorem setReg_dt (x : Nibble) (b : Byte) : (s.setReg x b).dt = s.dt := rfl
@[simp] theorem setReg_st (x : Nibble) (b : Byte) : (s.setReg x b).st = s.st := rfl
@[simp] theorem setReg_keys (x : Nibble) (b : Byte) : (s.setReg x b).keys = s.keys := rfl
@[simp] theorem setReg_krel (x : Nibble) (b : Byte) : (s.setReg x b).krel = s.krel := rfl
@[simp] theorem setReg_res (x : Nibble) (b : Byte) : (s.setReg x b).res = s.res := rfl
@[simp] theorem setReg_fb (x : Nibble) (b : Byte) : (s.setReg x b).fb = s.fb := rfl
@[simp] theorem setReg_execState (x : Nibble) (b : Byte) : (s.setReg x b).execState = s.execState := rfl
@[simp] theorem setReg_qcfg (x : Nibble) (b : Byte) : (s.setReg x b).qcfg = s.qcfg := rfl
@[simp] theorem setReg_font (x : Nibble) (b : Byte) : (s.setReg x b).font = s.font := rfl
@[simp] theorem setReg_err (x : Nibble) (b : Byte) : (s.setReg x b).err = s.err := rfl
@[simp] theorem setReg_loaded (x : Nibble) (b : Byte) : (s.setReg x b).loaded = s.loaded := rfl
@[simp] theorem setReg_flagStore (x : Nibble) (b : Byte) : (s.setReg x b).flagStore = s.flagStore := rfl
@[simp] theorem setReg_mem (x : Nibble) (b : Byte) : (s.setReg x b).mem = s.mem := rfl
@[simp] theorem setReg_params (x : Nibble) (b : Byte) : (s.setReg x b).params = s.params := rfl
@[simp] theorem setReg_draws (x : Nibble) (b : Byte) : (s.setReg x b).draws = s.draws := rfl
@[simp] theorem setReg_readByte (x : Nibble) (b : Byte) (c : Nat) : (s.setReg x b).readByte c = s.readByte c := rfl
@[simp] theorem setReg_key (x : Nibble) (b : Byte) (k : Nibble) : (s.setReg x b).key k = s.key k := rfl
@[simp] theorem setReg_pixel (x : Nibble) (b : Byte) (c r : Nat) : (s.setReg x b).pixel c r = s.pixel c r := rfl

/-! fillRegs -/

@[simp] theorem fillRegs_v (f : Nat → Byte) (n : Nat) : (s.fillRegs f n).v = State.fillVector f n s.v := rfl
@[simp] theorem fillRegs_i (f : Nat → Byte) (n : Nat) : (s.fillRegs f n).i = s.i := rfl
@[simp] theorem fillRegs_pc (f : Nat → Byte) (n : Nat) : (s.fillRegs f n).pc = s.pc := rfl
@[simp] theorem fillRegs_sp (f : Nat → Byte) (n : Nat) : (s.fillRegs f n).sp = s.sp := rfl
@[simp] theorem fillRegs_stk (f : Nat → Byte) (n : Nat) : (s.fillRegs f n).stk = s.stk := rfl
@[simp] theorem fillRegs_dt (f : Nat → Byte) (n : Nat) : (s.fillRegs f n).dt = s.dt := rfl
@[simp] theorem fillRegs_st (f : Nat → Byte) (n : Nat) : (s.fillRegs f n).st = s.st := rfl
@[simp] theorem fillRegs_keys (f : Nat → Byte) (n : Nat) : (s.fillRegs f n).keys = s.keys := rfl
@[simp] theorem fillRegs_krel (f : Nat → Byte) (n : Nat) : (s.fillRegs f n).krel = s.krel := rfl
@[simp] theorem fillRegs_res (f : Nat → Byte) (n : Nat) : (s.fillRegs f n).res = s.res := rfl
@[simp] theorem fillRegs_fb (f : Nat → Byte) (n : Nat) : (s.fillRegs f n).fb = s.fb := rfl
@[simp] theorem fillRegs_execState (f : Nat → Byte) (n : Nat) : (s.fillRegs f n).execState = s.execState := rfl
@[simp] theorem fillRegs_qcfg (f : Nat → Byte) (n : Nat) : (s.fillRegs f n).qcfg = s.qcfg := rfl
@[simp] theorem fillRegs_font (f : Nat → Byte) (n : Nat) : (s.fillRegs f n).font = s.font := rfl
@[simp] theorem fillRegs_err (f : Nat → Byte) (n : Nat) : (s.fillRegs f n).err = s.err := rfl
@[simp] theorem fillRegs_loaded (f : Nat → Byte) (n : Nat) : (s.fillRegs f n).loaded = s.loaded := rfl
@[simp] theorem fillRegs_flagStore (f : Nat → Byte) (n : Nat) : (s.fillRegs f n).flagStore = s.flagStore := rfl
@[simp] theorem fillRegs_mem (f : Nat → Byte) (n : Nat) : (s.fillRegs f n).mem = s.mem := rfl
@[simp] theorem fillRegs_params (f : Nat → Byte) (n : Nat) : (s.fillRegs f n).params = s.params := rfl
@[simp] theorem fillRegs_draws (f : Nat → Byte) (n : Nat) : (s.fillRegs f n).draws = s.draws := rfl
@[simp] theorem fillRegs_readByte (f : Nat → Byte) (n : Nat) (c : Nat) : (s.fillRegs f n).readByte c = s.readByte c := rfl
@[simp] theorem fillRegs_key (f : Nat → Byte) (n : Nat) (k : Nibble) : (s.fillRegs f n).key k = s.key k := rfl
@[simp] theorem fillRegs_pixel (f : Nat → Byte) (n : Nat) (c r : Nat) : (s.fillRegs f n).pixel c r = s.pixel c r := rfl

/-! setI -/

@[simp] theorem setI_v (n : Nat) : (s.setI n).v = s.v := rfl
@[simp] theorem setI_i (n : Nat) : (s.setI n).i = toAddr n := rfl
@[simp] theorem setI_pc (n : Nat) : (s.setI n).pc = s.pc := rfl
@[simp] theorem setI_sp (n : Nat) : (s.setI n).sp = s.sp := rfl
@[simp] theorem setI_stk (n : Nat) : (s.setI n).stk = s.stk := rfl
@[simp] theorem setI_dt (n : Nat) : (s.setI n).dt = s.dt := rfl
@[simp] theorem setI_st (n : Nat) : (s.setI n).st = s.st := rfl
@[simp] theorem setI_keys (n : Nat) : (s.setI n).keys = s.keys := rfl
@[simp] theorem setI_krel (n : Nat) : (s.setI n).krel = s.krel := rfl
@[simp] theorem setI_res (n : Nat) : (s.setI n).res = s.res := rfl
@[simp] theorem setI_fb (n : Nat) : (s.setI n).fb = s.fb := rfl
@[simp] theorem setI_execState (n : Nat) : (s.setI n).execState = s.execState := rfl
@[simp] theorem setI_qcfg (n : Nat) : (s.setI n).qcfg = s.qcfg := rfl
@[simp] theorem setI_font (n : Nat) : (s.setI n).font = s.font := rfl
@[simp] theorem setI_err (n : Nat) : (s.setI n).err = s.err := rfl
@[simp] theorem setI_loaded (n : Nat) : (s.setI n).loaded = s.loaded := rfl
@[simp] theorem setI_flagStore (n : Nat) : (s.setI n).flagStore = s.flagStore := rfl
@[simp] theorem setI_mem (n : Nat) : (s.setI n).mem = s.mem := rfl
@[simp] theorem setI_params (n : Nat) : (s.setI n).params = s.params := rfl
@[simp] theorem setI_draws (n : Nat) : (s.setI n).draws = s.draws := rfl
@[simp] theorem setI_reg (n : Nat) (y : Nibble) : (s.setI n).reg y = s.reg y := rfl
@[simp] theorem setI_readByte (n : Nat) (c : Nat) : (s.setI n).readByte c = s.readByte c := rfl
@[simp] theorem setI_key (n : Nat) (k : Nibble) : (s.setI n).key k = s.key k := rfl
@[simp] theorem setI_pixel (n : Nat) (c r : Nat) : (s.setI n).pixel c r = s.pixel c r := rfl

/-! setPc -/

@[simp] theorem setPc_v (n : Nat) : (s.setPc n).v = s.v := rfl
@[simp] theorem setPc_i (n : Nat) : (s.setPc n).i = s.i := rfl
@[simp] theorem setPc_pc (n : Nat) : (s.setPc n).pc = toAddr n := rfl
@[simp] theorem setPc_sp (n : Nat) : (s.setPc n).sp = s.sp := rfl
@[simp] theorem setPc_stk (n : Nat) : (s.setPc n).stk = s.stk := rfl
@[simp] theorem setPc_dt (n : Nat) : (s.setPc n).dt = s.dt := rfl
@[simp] theorem setPc_st (n : Nat) : (s.setPc n).st = s.st := rfl
@[simp] theorem setPc_keys (n : Nat) : (s.setPc n).keys = s.keys := rfl
@[simp] theorem setPc_krel (n : Nat) : (s.setPc n).krel = s.krel := rfl
@[simp] theorem setPc_res (n : Nat) : (s.setPc n).res = s.res := rfl
@[simp] theorem setPc_fb (n : Nat) : (s.setPc n).fb = s.fb := rfl
@[simp] theorem setPc_execState (n : Nat) : (s.setPc n).execState = s.execState := rfl
@[simp] theorem setPc_qcfg (n : Nat) : (s.setPc n).qcfg = s.qcfg := rfl
@[simp] theorem setPc_font (n : Nat) : (s.setPc n).font = s.font := rfl
@[simp] theorem setPc_err (n : Nat) : (s.setPc n).err = s.err := rfl
@[simp] theorem setPc_loaded (n : Nat) : (s.setPc n).loaded = s.loaded := rfl
@[simp] theorem setPc_flagStore (n : Nat) : (s.setPc n).flagStore = s.flagStore := rfl
@[simp] theorem setPc_mem (n : Nat) : (s.setPc n).mem = s.mem := rfl
@[simp] theorem setPc_params (n : Nat) : (s.setPc n).params = s.params := rfl
@[simp] theorem setPc_draws (n : Nat) : (s.setPc n).draws = s.draws := rfl
@[simp] theorem setPc_reg (n : Nat) (y : Nibble) : (s.setPc n).reg y = s.reg y := rfl
@[simp] theorem setPc_readByte (n : Nat) (c : Nat) : (s.setPc n).readByte c = s.readByte c := rfl
@[simp] theorem setPc_key (n : Nat) (k : Nibble) : (s.setPc n).key k = s.key k := rfl
@[simp] theorem setPc_pixel (n : Nat) (c r : Nat) : (s.setPc n).pixel c r = s.pixel c r := rfl

/-! afterFetch -/

@[simp] theorem afterFetch_v : (s.afterFetch).v = s.v := rfl
@[simp] theorem afterFetch_i : (s.afterFetch).i = s.i := rfl
@[simp] theorem afterFetch_pc : (s.afterFetch).pc = guardPc (toAddr (s.fetchAddress + 2)) := rfl
@[simp] theorem afterFetch_sp : (s.afterFetch).sp = s.sp := rfl
@[simp] theorem afterFetch_stk : (s.afterFetch).stk = s.stk := rfl
@[simp] theorem afterFetch_dt : (s.afterFetch).dt = s.dt := rfl
@[simp] theorem afterFetch_st : (s.afterFetch).st = s.st := rfl
@[simp] theorem afterFetch_keys : (s.afterFetch).keys = s.keys := rfl
@[simp] theorem afterFetch_krel : (s.afterFetch).krel = s.krel := rfl
@[simp] theorem afterFetch_res : (s.afterFetch).res = s.res := rfl
@[simp] theorem afterFetch_fb : (s.afterFetch).fb = s.fb := rfl
@[simp] theorem afterFetch_execState : (s.afterFetch).execState = s.execState := rfl
@[simp] theorem afterFetch_qcfg : (s.afterFetch).qcfg = s.qcfg := rfl
@[simp] theorem afterFetch_font : (s.afterFetch).font = s.font := rfl
@[simp] theorem afterFetch_err : (s.afterFetch).err = s.err := rfl
@[simp] theorem afterFetch_loaded : (s.afterFetch).loaded = s.loaded := rfl
@[simp] theorem afterFetch_flagStore : (s.afterFetch).flagStore = s.flagStore := rfl
@[simp] theorem afterFetch_mem : (s.afterFetch).mem = s.mem := rfl
@[simp] theorem afterFetch_params : (s.afterFetch).params = s.params := rfl
@[simp] theorem afterFetch_draws : (s.afterFetch).draws = s.draws := rfl
@[simp] theorem afterFetch_reg (y : Nibble) : (s.afterFetch).reg y = s.reg y := rfl
@[simp] theorem afterFetch_readByte (c : Nat) : (s.afterFetch).readByte c = s.readByte c := rfl
@[simp] theorem afterFetch_key (k : Nibble) : (s.afterFetch).key k = s.key k := rfl
@[simp] theorem afterFetch_pixel (c r : Nat) : (s.afterFetch).pixel c r = s.pixel c r := rfl

/-! setStack -/

@[simp] theorem setStack_v (sp : Nat) (stk : List Word) : (s.setStack sp stk).v = s.v := rfl
@[simp] theorem setStack_i (sp : Nat) (stk : List Word) : (s.setStack sp stk).i = s.i := rfl
@[simp] theorem setStack_pc (sp : Nat) (stk : List Word) : (s.setStack sp stk).pc = s.pc := rfl
@[simp] theorem setStack_sp (sp : Nat) (stk : List Word) : (s.setStack sp stk).sp = sp := rfl
@[simp] theorem setStack_stk (sp : Nat) (stk : List Word) : (s.setStack sp stk).stk = stk := rfl
@[simp] theorem setStack_dt (sp : Nat) (stk : List Word) : (s.setStack sp stk).dt = s.dt := rfl
@[simp] theorem setStack_st (sp : Nat) (stk : List Word) : (s.setStack sp stk).st = s.st := rfl
@[simp] theorem setStack_keys (sp : Nat) (stk : List Word) : (s.setStack sp stk).keys = s.keys := rfl
@[simp] theorem setStack_krel (sp : Nat) (stk : List Word) : (s.setStack sp stk).krel = s.krel := rfl
@[simp] theorem setStack_res (sp : Nat) (stk : List Word) : (s.setStack sp stk).res = s.res := rfl
@[simp] theorem setStack_fb (sp : Nat) (stk : List Word) : (s.setStack sp stk).fb = s.fb := rfl
@[simp] theorem setStack_execState (sp : Nat) (stk : List Word) : (s.setStack sp stk).execState = s.execState := rfl
@[simp] theorem setStack_qcfg (sp : Nat) (stk : List Word) : (s.setStack sp stk).qcfg = s.qcfg := rfl
@[simp] theorem setStack_font (sp : Nat) (stk : List Word) : (s.setStack sp stk).font = s.font := rfl
@[simp] theorem setStack_err (sp : Nat) (stk : List Word) : (s.setStack sp stk).err = s.err := rfl
@[simp] theorem setStack_loaded (sp : Nat) (stk : List Word) : (s.setStack sp stk).loaded = s.loaded := rfl
@[simp] theorem setStack_flagStore (sp : Nat) (stk : List Word) : (s.setStack sp stk).flagStore = s.flagStore := rfl
@[simp] theorem setStack_mem (sp : Nat) (stk : List Word) : (s.setStack sp stk).mem = s.mem := rfl
@[simp] theorem setStack_params (sp : Nat) (stk : List Word) : (s.setStack sp stk).params = s.params := rfl
@[simp] theorem setStack_draws (sp : Nat) (stk : List Word) : (s.setStack sp stk).draws = s.draws := rfl
@[simp] theorem setStack_reg (sp : Nat) (stk : List Word) (y : Nibble) : (s.setStack sp stk).reg y = s.reg y := rfl
@[simp] theorem setStack_readByte (sp : Nat) (stk : List Word) (c : Nat) : (s.setStack sp stk).readByte c = s.readByte c := rfl
@[simp] theorem setStack_key (sp : Nat) (stk : List Word) (k : Nibble) : (s.setStack sp stk).key k = s.key k := rfl
@[simp] theorem setStack_pixel (sp : Nat) (stk : List Word) (c r : Nat) : (s.setStack sp stk).pixel c r = s.pixel c r := rfl

/-! setDt -/

@[simp] theorem setDt_v (b : Byte) : (s.setDt b).v = s.v := rfl
@[simp] theorem setDt_i (b : Byte) : (s.setDt b).i = s.i := rfl
@[simp] theorem setDt_pc (b : Byte) : (s.setDt b).pc = s.pc := rfl
@[simp] theorem setDt_sp (b : Byte) : (s.setDt b).sp = s.sp := rfl
@[simp] theorem setDt_stk (b : Byte) : (s.setDt b).stk = s.stk := rfl
@[simp] theorem setDt_dt (b : Byte) : (s.setDt b).dt = b := rfl
@[simp] theorem setDt_st (b : Byte) : (s.setDt b).st = s.st := rfl
@[simp] theorem setDt_keys (b : Byte) : (s.setDt b).keys = s.keys := rfl
@[simp] theorem setDt_krel (b : Byte) : (s.setDt b).krel = s.krel := rfl
@[simp] theorem setDt_res (b : Byte) : (s.setDt b).res = s.res := rfl
@[simp] theorem setDt_fb (b : Byte) : (s.setDt b).fb = s.fb := rfl
@[simp] theorem setDt_execState (b : Byte) : (s.setDt b).execState = s.execState := rfl
@[simp] theorem setDt_qcfg (b : Byte) : (s.setDt b).qcfg = s.qcfg := rfl
@[simp] theorem setDt_font (b : Byte) : (s.setDt b).font = s.font := rfl
@[simp] theorem setDt_err (b : Byte) : (s.setDt b).err = s.err := rfl
@[simp] theorem setDt_loaded (b : Byte) : (s.setDt b).loaded = s.loaded := rfl
@[simp] theorem setDt_flagStore (b : Byte) : (s.setDt b).flagStore = s.flagStore := rfl
@[simp] theorem setDt_mem (b : Byte) : (s.setDt b).mem = s.mem := rfl
@[simp] theorem setDt_params (b : Byte) : (s.setDt b).params = s.params := rfl
@[simp] theorem setDt_draws (b : Byte) : (s.setDt b).draws = s.draws := rfl
@[simp] theorem setDt_reg (b : Byte) (y : Nibble) : (s.setDt b).reg y = s.reg y := rfl
@[simp] theorem setDt_readByte (b : Byte) (c : Nat) : (s.setDt b).readByte c = s.readByte c := rfl
@[simp] theorem setDt_key (b : Byte) (k : Nibble) : (s.setDt b).key k = s.key k := rfl
@[simp] theorem setDt_pixel (b : Byte) (c r : Nat) : (s.setDt b).pixel c r = s.pixel c r := rfl

/-! setSt -/

@[simp] theorem setSt_v (b : Byte) : (s.setSt b).v = s.v := rfl
@[simp] theorem setSt_i (b : Byte) : (s.setSt b).i = s.i := rfl
@[simp] theorem setSt_pc (b : Byte) : (s.setSt b).pc = s.pc := rfl
@[simp] theorem setSt_sp (b : Byte) : (s.setSt b).sp = s.sp := rfl
@[simp] theorem setSt_stk (b : Byte) : (s.setSt b).stk = s.stk := rfl
@[simp] theorem setSt_dt (b : Byte) : (s.setSt b).dt = s.dt := rfl
@[simp] theorem setSt_st (b : Byte) : (s.setSt b).st = b := rfl
@[simp] theorem setSt_keys (b : Byte) : (s.setSt b).keys = s.keys := rfl
@[simp] theorem setSt_krel (b : Byte) : (s.setSt b).krel = s.krel := rfl
@[simp] theorem setSt_res (b : Byte) : (s.setSt b).res = s.res := rfl
@[simp] theorem setSt_fb (b : Byte) : (s.setSt b).fb = s.fb := rfl
@[simp] theorem setSt_execState (b : Byte) : (s.setSt b).execState = s.execState := rfl
@[simp] theorem setSt_qcfg (b : Byte) : (s.setSt b).qcfg = s.qcfg := rfl
@[simp] theorem setSt_font (b : Byte) : (s.setSt b).font = s.font := rfl
@[simp] theorem setSt_err (b : Byte) : (s.setSt b).err = s.err := rfl
@[simp] theorem setSt_loaded (b : Byte) : (s.setSt b).loaded = s.loaded := rfl
@[simp] theorem setSt_flagStore (b : Byte) : (s.setSt b).flagStore = s.flagStore := rfl
@[simp] theorem setSt_mem (b : Byte) : (s.setSt b).mem = s.mem := rfl
@[simp] theorem setSt_params (b : Byte) : (s.setSt b).params = s.params := rfl
@[simp] theorem setSt_draws (b : Byte) : (s.setSt b).draws = s.draws := rfl
@[simp] theorem setSt_reg (b : Byte) (y : Nibble) : (s.setSt b).reg y = s.reg y := rfl
@[simp] theorem setSt_readByte (b : Byte) (c : Nat) : (s.setSt b).readByte c = s.readByte c := rfl
@[simp] theorem setSt_key (b : Byte) (k : Nibble) : (s.setSt b).key k = s.key k := rfl
@[simp] theorem setSt_pixel (b : Byte) (c r : Nat) : (s.setSt b).pixel c r = s.pixel c r := rfl

/-! setKeypad -/

@[simp] theorem setKeypad_v (levels : Vector Bool 16) (released : Option Nibble) : (s.setKeypad levels released).v = s.v := rfl
@[simp] theorem setKeypad_i (levels : Vector Bool 16) (released : Option Nibble) : (s.setKeypad levels released).i = s.i := rfl
@[simp] theorem setKeypad_pc (levels : Vector Bool 16) (released : Option Nibble) : (s.setKeypad levels released).pc = s.pc := rfl
@[simp] theorem setKeypad_sp (levels : Vector Bool 16) (released : Option Nibble) : (s.setKeypad levels released).sp = s.sp := rfl
@[simp] theorem setKeypad_stk (levels : Vector Bool 16) (released : Option Nibble) : (s.setKeypad levels released).stk = s.stk := rfl
@[simp] theorem setKeypad_dt (levels : Vector Bool 16) (released : Option Nibble) : (s.setKeypad levels released).dt = s.dt := rfl
@[simp] theorem setKeypad_st (levels : Vector Bool 16) (released : Option Nibble) : (s.setKeypad levels released).st = s.st := rfl
@[simp] theorem setKeypad_keys (levels : Vector Bool 16) (released : Option Nibble) : (s.setKeypad levels released).keys = levels := rfl
@[simp] theorem setKeypad_krel (levels : Vector Bool 16) (released : Option Nibble) : (s.setKeypad levels released).krel = released := rfl
@[simp] theorem setKeypad_res (levels : Vector Bool 16) (released : Option Nibble) : (s.setKeypad levels released).res = s.res := rfl
@[simp] theorem setKeypad_fb (levels : Vector Bool 16) (released : Option Nibble) : (s.setKeypad levels released).fb = s.fb := rfl
@[simp] theorem setKeypad_execState (levels : Vector Bool 16) (released : Option Nibble) : (s.setKeypad levels released).execState = s.execState := rfl
@[simp] theorem setKeypad_qcfg (levels : Vector Bool 16) (released : Option Nibble) : (s.setKeypad levels released).qcfg = s.qcfg := rfl
@[simp] theorem setKeypad_font (levels : Vector Bool 16) (released : Option Nibble) : (s.setKeypad levels released).font = s.font := rfl
@[simp] theorem setKeypad_err (levels : Vector Bool 16) (released : Option Nibble) : (s.setKeypad levels released).err = s.err := rfl
@[simp] theorem setKeypad_loaded (levels : Vector Bool 16) (released : Option Nibble) : (s.setKeypad levels released).loaded = s.loaded := rfl
@[simp] theorem setKeypad_flagStore (levels : Vector Bool 16) (released : Option Nibble) : (s.setKeypad levels released).flagStore = s.flagStore := rfl
@[simp] theorem setKeypad_mem (levels : Vector Bool 16) (released : Option Nibble) : (s.setKeypad levels released).mem = s.mem := rfl
@[simp] theorem setKeypad_params (levels : Vector Bool 16) (released : Option Nibble) : (s.setKeypad levels released).params = s.params := rfl
@[simp] theorem setKeypad_draws (levels : Vector Bool 16) (released : Option Nibble) : (s.setKeypad levels released).draws = s.draws := rfl
@[simp] theorem setKeypad_reg (levels : Vector Bool 16) (released : Option Nibble) (y : Nibble) : (s.setKeypad levels released).reg y = s.reg y := rfl
@[simp] theorem setKeypad_readByte (levels : Vector Bool 16) (released : Option Nibble) (c : Nat) : (s.setKeypad levels released).readByte c = s.readByte c := rfl
@[simp] theorem setKeypad_pixel (levels : Vector Bool 16) (released : Option Nibble) (c r : Nat) : (s.setKeypad levels released).pixel c r = s.pixel c r := rfl

/-! setScreen -/

@[simp] theorem setScreen_v (res : Resolution) (fb : Grid) : (s.setScreen res fb).v = s.v := rfl
@[simp] theorem setScreen_i (res : Resolution) (fb : Grid) : (s.setScreen res fb).i = s.i := rfl
@[simp] theorem setScreen_pc (res : Resolution) (fb : Grid) : (s.setScreen res fb).pc = s.pc := rfl
@[simp] theorem setScreen_sp (res : Resolution) (fb : Grid) : (s.setScreen res fb).sp = s.sp := rfl
@[simp] theorem setScreen_stk (res : Resolution) (fb : Grid) : (s.setScreen res fb).stk = s.stk := rfl
@[simp] theorem setScreen_dt (res : Resolution) (fb : Grid) : (s.setScreen res fb).dt = s.dt := rfl
@[simp] theorem setScreen_st (res : Resolution) (fb : Grid) : (s.setScreen res fb).st = s.st := rfl
@[simp] theorem setScreen_keys (res : Resolution) (fb : Grid) : (s.setScreen res fb).keys = s.keys := rfl
@[simp] theorem setScreen_krel (res : Resolution) (fb : Grid) : (s.setScreen res fb).krel = s.krel := rfl
@[simp] theorem setScreen_res (res : Resolution) (fb : Grid) : (s.setScreen res fb).res = res := rfl
@[simp] theorem setScreen_fb (res : Resolution) (fb : Grid) : (s.setScreen res fb).fb = fb := rfl
@[simp] theorem setScreen_execState (res : Resolution) (fb : Grid) : (s.setScreen res fb).execState = s.execState := rfl
@[simp] theorem setScreen_qcfg (res : Resolution) (fb : Grid) : (s.setScreen res fb).qcfg = s.qcfg := rfl
@[simp] theorem setScreen_font (res : Resolution) (fb : Grid) : (s.setScreen res fb).font = s.font := rfl
@[simp] theorem setScreen_err (res : Resolution) (fb : Grid) : (s.setScreen res fb).err = s.err := rfl
@[simp] theorem setScreen_loaded (res : Resolution) (fb : Grid) : (s.setScreen res fb).loaded = s.loaded := rfl
@[simp] theorem setScreen_flagStore (res : Resolution) (fb : Grid) : (s.setScreen res fb).flagStore = s.flagStore := rfl
@[simp] theorem setScreen_mem (res : Resolution) (fb : Grid) : (s.setScreen res fb).mem = s.mem := rfl
@[simp] theorem setScreen_params (res : Resolution) (fb : Grid) : (s.setScreen res fb).params = s.params := rfl
@[simp] theorem setScreen_draws (res : Resolution) (fb : Grid) : (s.setScreen res fb).draws = s.draws := rfl
@[simp] theorem setScreen_reg (res : Resolution) (fb : Grid) (y : Nibble) : (s.setScreen res fb).reg y = s.reg y := rfl
@[simp] theorem setScreen_readByte (res : Resolution) (fb : Grid) (c : Nat) : (s.setScreen res fb).readByte c = s.readByte c := rfl
@[simp] theorem setScreen_key (res : Resolution) (fb : Grid) (k : Nibble) : (s.setScreen res fb).key k = s.key k := rfl

/-! setExec -/

@[simp] theorem setExec_v (e : ExecState) : (s.setExec e).v = s.v := rfl
@[simp] theorem setExec_i (e : ExecState) : (s.setExec e).i = s.i := rfl
@[simp] theorem setExec_pc (e : ExecState) : (s.setExec e).pc = s.pc := rfl
@[simp] theorem setExec_sp (e : ExecState) : (s.setExec e).sp = s.sp := rfl
@[simp] theorem setExec_stk (e : ExecState) : (s.setExec e).stk = s.stk := rfl
@[simp] theorem setExec_dt (e : ExecState) : (s.setExec e).dt = s.dt := rfl
@[simp] theorem setExec_st (e : ExecState) : (s.setExec e).st = s.st := rfl
@[simp] theorem setExec_keys (e : ExecState) : (s.setExec e).keys = s.keys := rfl
@[simp] theorem setExec_krel (e : ExecState) : (s.setExec e).krel = s.krel := rfl
@[simp] theorem setExec_res (e : ExecState) : (s.setExec e).res = s.res := rfl
@[simp] theorem setExec_fb (e : ExecState) : (s.setExec e).fb = s.fb := rfl
@[simp] theorem setExec_execState (e : ExecState) : (s.setExec e).execState = e := rfl
@[simp] theorem setExec_qcfg (e : ExecState) : (s.setExec e).qcfg = s.qcfg := rfl
@[simp] theorem setExec_font (e : ExecState) : (s.setExec e).font = s.font := rfl
@[simp] theorem setExec_err (e : ExecState) : (s.setExec e).err = s.err := rfl
@[simp] theorem setExec_loaded (e : ExecState) : (s.setExec e).loaded = s.loaded := rfl
@[simp] theorem setExec_flagStore (e : ExecState) : (s.setExec e).flagStore = s.flagStore := rfl
@[simp] theorem setExec_mem (e : ExecState) : (s.setExec e).mem = s.mem := rfl
@[simp] theorem setExec_params (e : ExecState) : (s.setExec e).params = s.params := rfl
@[simp] theorem setExec_draws (e : ExecState) : (s.setExec e).draws = s.draws := rfl
@[simp] theorem setExec_reg (e : ExecState) (y : Nibble) : (s.setExec e).reg y = s.reg y := rfl
@[simp] theorem setExec_readByte (e : ExecState) (c : Nat) : (s.setExec e).readByte c = s.readByte c := rfl
@[simp] theorem setExec_key (e : ExecState) (k : Nibble) : (s.setExec e).key k = s.key k := rfl
@[simp] theorem setExec_pixel (e : ExecState) (c r : Nat) : (s.setExec e).pixel c r = s.pixel c r := rfl

/-! setQcfg -/

@[simp] theorem setQcfg_v (q : Quirks) : (s.setQcfg q).v = s.v := rfl
@[simp] theorem setQcfg_i (q : Quirks) : (s.setQcfg q).i = s.i := rfl
@[simp] theorem setQcfg_pc (q : Quirks) : (s.setQcfg q).pc = s.pc := rfl
@[simp] theorem setQcfg_sp (q : Quirks) : (s.setQcfg q).sp = s.sp := rfl
@[simp] theorem setQcfg_stk (q : Quirks) : (s.setQcfg q).stk = s.stk := rfl
@[simp] theorem setQcfg_dt (q : Quirks) : (s.setQcfg q).dt = s.dt := rfl
@[simp] theorem setQcfg_st (q : Quirks) : (s.setQcfg q).st = s.st := rfl
@[simp] theorem setQcfg_keys (q : Quirks) : (s.setQcfg q).keys = s.keys := rfl
@[simp] theorem setQcfg_krel (q : Quirks) : (s.setQcfg q).krel = s.krel := rfl
@[simp] theorem setQcfg_res (q : Quirks) : (s.setQcfg q).res = s.res := rfl
@[simp] theorem setQcfg_fb (q : Quirks) : (s.setQcfg q).fb = s.fb := rfl
@[simp] theorem setQcfg_execState (q : Quirks) : (s.setQcfg q).execState = s.execState := rfl
@[simp] theorem setQcfg_qcfg (q : Quirks) : (s.setQcfg q).qcfg = q := rfl
@[simp] theorem setQcfg_font (q : Quirks) : (s.setQcfg q).font = s.font := rfl
@[simp] theorem setQcfg_err (q : Quirks) : (s.setQcfg q).err = s.err := rfl
@[simp] theorem setQcfg_loaded (q : Quirks) : (s.setQcfg q).loaded = s.loaded := rfl
@[simp] theorem setQcfg_flagStore (q : Quirks) : (s.setQcfg q).flagStore = s.flagStore := rfl
@[simp] theorem setQcfg_mem (q : Quirks) : (s.setQcfg q).mem = s.mem := rfl
@[simp] theorem setQcfg_params (q : Quirks) : (s.setQcfg q).params = s.params := rfl
@[simp] theorem setQcfg_draws (q : Quirks) : (s.setQcfg q).draws = s.draws := rfl
@[simp] theorem setQcfg_reg (q : Quirks) (y : Nibble) : (s.setQcfg q).reg y = s.reg y := rfl
@[simp] theorem setQcfg_readByte (q : Quirks) (c : Nat) : (s.setQcfg q).readByte c = s.readByte c := rfl
@[simp] theorem setQcfg_key (q : Quirks) (k : Nibble) : (s.setQcfg q).key k = s.key k := rfl
@[simp] theorem setQcfg_pixel (q : Quirks) (c r : Nat) : (s.setQcfg q).pixel c r = s.pixel c r := rfl

/-! setFont -/

@[simp] theorem setFont_v (f : FontSet) : (s.setFont f).v = s.v := rfl
@[simp] theorem setFont_i (f : FontSet) : (s.setFont f).i = s.i := rfl
@[simp] theorem setFont_pc (f : FontSet) : (s.setFont f).pc = s.pc := rfl
@[simp] theorem setFont_sp (f : FontSet) : (s.setFont f).sp = s.sp := rfl
@[simp] theorem setFont_stk (f : FontSet) : (s.setFont f).stk = s.stk := rfl
@[simp] theorem setFont_dt (f : FontSet) : (s.setFont f).dt = s.dt := rfl
@[simp] theorem setFont_st (f : FontSet) : (s.setFont f).st = s.st := rfl
@[simp] theorem setFont_keys (f : FontSet) : (s.setFont f).keys = s.keys := rfl
@[simp] theorem setFont_krel (f : FontSet) : (s.setFont f).krel = s.krel := rfl
@[simp] theorem setFont_res (f : FontSet) : (s.setFont f).res = s.res := rfl
@[simp] theorem setFont_fb (f : FontSet) : (s.setFont f).fb = s.fb := rfl
@[simp] theorem setFont_execState (f : FontSet) : (s.setFont f).execState = s.execState := rfl
@[simp] theorem setFont_qcfg (f : FontSet) : (s.setFont f).qcfg = s.qcfg := rfl
@[simp] theorem setFont_font (f : FontSet) : (s.setFont f).font = f := rfl
@[simp] theorem setFont_err (f : FontSet) : (s.setFont f).err = s.err := rfl
@[simp] theorem setFont_loaded (f : FontSet) : (s.setFont f).loaded = s.loaded := rfl
@[simp] theorem setFont_flagStore (f : FontSet) : (s.setFont f).flagStore = s.flagStore := rfl
@[simp] theorem setFont_mem (f : FontSet) : (s.setFont f).mem = s.mem := rfl
@[simp] theorem setFont_params (f : FontSet) : (s.setFont f).params = s.params := rfl
@[simp] theorem setFont_draws (f : FontSet) : (s.setFont f).draws = s.draws := rfl
@[simp] theorem setFont_reg (f : FontSet) (y : Nibble) : (s.setFont f).reg y = s.reg y := rfl
@[simp] theorem setFont_readByte (f : FontSet) (c : Nat) : (s.setFont f).readByte c = s.readByte c := rfl
@[simp] theorem setFont_key (f : FontSet) (k : Nibble) : (s.setFont f).key k = s.key k := rfl
@[simp] theorem setFont_pixel (f : FontSet) (c r : Nat) : (s.setFont f).pixel c r = s.pixel c r := rfl

/-! setErr -/

@[simp] theorem setErr_v (e : Byte) : (s.setErr e).v = s.v := rfl
@[simp] theorem setErr_i (e : Byte) : (s.setErr e).i = s.i := rfl
@[simp] theorem setErr_pc (e : Byte) : (s.setErr e).pc = s.pc := rfl
@[simp] theorem setErr_sp (e : Byte) : (s.setErr e).sp = s.sp := rfl
@[simp] theorem setErr_stk (e : Byte) : (s.setErr e).stk = s.stk := rfl
@[simp] theorem setErr_dt (e : Byte) : (s.setErr e).dt = s.dt := rfl
@[simp] theorem setErr_st (e : Byte) : (s.setErr e).st = s.st := rfl
@[simp] theorem setErr_keys (e : Byte) : (s.setErr e).keys = s.keys := rfl
@[simp] theorem setErr_krel (e : Byte) : (s.setErr e).krel = s.krel := rfl
@[simp] theorem setErr_res (e : Byte) : (s.setErr e).res = s.res := rfl
@[simp] theorem setErr_fb (e : Byte) : (s.setErr e).fb = s.fb := rfl
@[simp] theorem setErr_execState (e : Byte) : (s.setErr e).execState = s.execState := rfl
@[simp] theorem setErr_qcfg (e : Byte) : (s.setErr e).qcfg = s.qcfg := rfl
@[simp] theorem setErr_font (e : Byte) : (s.setErr e).font = s.font := rfl
@[simp] theorem setErr_err (e : Byte) : (s.setErr e).err = e := rfl
@[simp] theorem setErr_loaded (e : Byte) : (s.setErr e).loaded = s.loaded := rfl
@[simp] theorem setErr_flagStore (e : Byte) : (s.setErr e).flagStore = s.flagStore := rfl
@[simp] theorem setErr_mem (e : Byte) : (s.setErr e).mem = s.mem := rfl
@[simp] theorem setErr_params (e : Byte) : (s.setErr e).params = s.params := rfl
@[simp] theorem setErr_draws (e : Byte) : (s.setErr e).draws = s.draws := rfl
@[simp] theorem setErr_reg (e : Byte) (y : Nibble) : (s.setErr e).reg y = s.reg y := rfl
@[simp] theorem setErr_readByte (e : Byte) (c : Nat) : (s.setErr e).readByte c = s.readByte c := rfl
@[simp] theorem setErr_key (e : Byte) (k : Nibble) : (s.setErr e).key k = s.key k := rfl
@[simp] theorem setErr_pixel (e : Byte) (c r : Nat) : (s.setErr e).pixel c r = s.pixel c r := rfl

/-! setLoaded -/

@[simp] theorem setLoaded_v (b : Bool) : (s.setLoaded b).v = s.v := rfl
@[simp] theorem setLoaded_i (b : Bool) : (s.setLoaded b).i = s.i := rfl
@[simp] theorem setLoaded_pc (b : Bool) : (s.setLoaded b).pc = s.pc := rfl
@[simp] theorem setLoaded_sp (b : Bool) : (s.setLoaded b).sp = s.sp := rfl
@[simp] theorem setLoaded_stk (b : Bool) : (s.setLoaded b).stk = s.stk := rfl
@[simp] theorem setLoaded_dt (b : Bool) : (s.setLoaded b).dt = s.dt := rfl
@[simp] theorem setLoaded_st (b : Bool) : (s.setLoaded b).st = s.st := rfl
@[simp] theorem setLoaded_keys (b : Bool) : (s.setLoaded b).keys = s.keys := rfl
@[simp] theorem setLoaded_krel (b : Bool) : (s.setLoaded b).krel = s.krel := rfl
@[simp] theorem setLoaded_res (b : Bool) : (s.setLoaded b).res = s.res := rfl
@[simp] theorem setLoaded_fb (b : Bool) : (s.setLoaded b).fb = s.fb := rfl
@[simp] theorem setLoaded_execState (b : Bool) : (s.setLoaded b).execState = s.execState := rfl
@[simp] theorem setLoaded_qcfg (b : Bool) : (s.setLoaded b).qcfg = s.qcfg := rfl
@[simp] theorem setLoaded_font (b : Bool) : (s.setLoaded b).font = s.font := rfl
@[simp] theorem setLoaded_err (b : Bool) : (s.setLoaded b).err = s.err := rfl
@[simp] theorem setLoaded_loaded (b : Bool) : (s.setLoaded b).loaded = b := rfl
@[simp] theorem setLoaded_flagStore (b : Bool) : (s.setLoaded b).flagStore = s.flagStore := rfl
@[simp] theorem setLoaded_mem (b : Bool) : (s.setLoaded b).mem = s.mem := rfl
@[simp] theorem setLoaded_params (b : Bool) : (s.setLoaded b).params = s.params := rfl
@[simp] theorem setLoaded_draws (b : Bool) : (s.setLoaded b).draws = s.draws := rfl
@[simp] theorem setLoaded_reg (b : Bool) (y : Nibble) : (s.setLoaded b).reg y = s.reg y := rfl
@[simp] theorem setLoaded_readByte (b : Bool) (c : Nat) : (s.setLoaded b).readByte c = s.readByte c := rfl
@[simp] theorem setLoaded_key (b : Bool) (k : Nibble) : (s.setLoaded b).key k = s.key k := rfl
@[simp] theorem setLoaded_pixel (b : Bool) (c r : Nat) : (s.setLoaded b).pixel c r = s.pixel c r := rfl

/-! setFlagStore -/

@[simp] theorem setFlagStore_v (bs : List Byte) : (s.setFlagStore bs).v = s.v := rfl
@[simp] theorem setFlagStore_i (bs : List Byte) : (s.setFlagStore bs).i = s.i := rfl
@[simp] theorem setFlagStore_pc (bs : List Byte) : (s.setFlagStore bs).pc = s.pc := rfl
@[simp] theorem setFlagStore_sp (bs : List Byte) : (s.setFlagStore bs).sp = s.sp := rfl
@[simp] theorem setFlagStore_stk (bs : List Byte) : (s.setFlagStore bs).stk = s.stk := rfl
@[simp] theorem setFlagStore_dt (bs : List Byte) : (s.setFlagStore bs).dt = s.dt := rfl
@[simp] theorem setFlagStore_st (bs : List Byte) : (s.setFlagStore bs).st = s.st := rfl
@[simp] theorem setFlagStore_keys (bs : List Byte) : (s.setFlagStore bs).keys = s.keys := rfl
@[simp] theorem setFlagStore_krel (bs : List Byte) : (s.setFlagStore bs).krel = s.krel := rfl
@[simp] theorem setFlagStore_res (bs : List Byte) : (s.setFlagStore bs).res = s.res := rfl
@[simp] theorem setFlagStore_fb (bs : List Byte) : (s.setFlagStore bs).fb = s.fb := rfl
@[simp] theorem setFlagStore_execState (bs : List Byte) : (s.setFlagStore bs).execState = s.execState := rfl
@[simp] theorem setFlagStore_qcfg (bs : List Byte) : (s.setFlagStore bs).qcfg = s.qcfg := rfl
@[simp] theorem setFlagStore_font (bs : List Byte) : (s.setFlagStore bs).font = s.font := rfl
@[simp] theorem setFlagStore_err (bs : List Byte) : (s.setFlagStore bs).err = s.err := rfl
@[simp] theorem setFlagStore_loaded (bs : List Byte) : (s.setFlagStore bs).loaded = s.loaded := rfl
@[simp] theorem setFlagStore_flagStore (bs : List Byte) : (s.setFlagStore bs).flagStore = bs := rfl
@[simp] theorem setFlagStore_mem (bs : List Byte) : (s.setFlagStore bs).mem = s.mem := rfl
@[simp] theorem setFlagStore_params (bs : List Byte) : (s.setFlagStore bs).params = s.params := rfl
@[simp] theorem setFlagStore_draws (bs : List Byte) : (s.setFlagStore bs).draws = s.draws := rfl
@[simp] theorem setFlagStore_reg (bs : List Byte) (y : Nibble) : (s.setFlagStore bs).reg y = s.reg y := rfl
@[simp] theorem setFlagStore_readByte (bs : List Byte) (c : Nat) : (s.setFlagStore bs).readByte c = s.readByte c := rfl
@[simp] theorem setFlagStore_key (bs : List Byte) (k : Nibble) : (s.setFlagStore bs).key k = s.key k := rfl
@[simp] theorem setFlagStore_pixel (bs : List Byte) (c r : Nat) : (s.setFlagStore bs).pixel c r = s.pixel c r := rfl

/-! writeBytes -/

@[simp] theorem writeBytes_v (a : Nat) (bs : List Byte) : (s.writeBytes a bs).v = s.v := rfl
@[simp] theorem writeBytes_i (a : Nat) (bs : List Byte) : (s.writeBytes a bs).i = s.i := rfl
@[simp] theorem writeBytes_pc (a : Nat) (bs : List Byte) : (s.writeBytes a bs).pc = s.pc := rfl
@[simp] theorem writeBytes_sp (a : Nat) (bs : List Byte) : (s.writeBytes a bs).sp = s.sp := rfl
@[simp] theorem writeBytes_stk (a : Nat) (bs : List Byte) : (s.writeBytes a bs).stk = s.stk := rfl
@[simp] theorem writeBytes_dt (a : Nat) (bs : List Byte) : (s.writeBytes a bs).dt = s.dt := rfl
@[simp] theorem writeBytes_st (a : Nat) (bs : List Byte) : (s.writeBytes a bs).st = s.st := rfl
@[simp] theorem writeBytes_keys (a : Nat) (bs : List Byte) : (s.writeBytes a bs).keys = s.keys := rfl
@[simp] theorem writeBytes_krel (a : Nat) (bs : List Byte) : (s.writeBytes a bs).krel = s.krel := rfl
@[simp] theorem writeBytes_res (a : Nat) (bs : List Byte) : (s.writeBytes a bs).res = s.res := rfl
@[simp] theorem writeBytes_fb (a : Nat) (bs : List Byte) : (s.writeBytes a bs).fb = s.fb := rfl
@[simp] theorem writeBytes_execState (a : Nat) (bs : List Byte) : (s.writeBytes a bs).execState = s.execState := rfl
@[simp] theorem writeBytes_qcfg (a : Nat) (bs : List Byte) : (s.writeBytes a bs).qcfg = s.qcfg := rfl
@[simp] theorem writeBytes_font (a : Nat) (bs : List Byte) : (s.writeBytes a bs).font = s.font := rfl
@[simp] theorem writeBytes_err (a : Nat) (bs : List Byte) : (s.writeBytes a bs).err = s.err := rfl
@[simp] theorem writeBytes_loaded (a : Nat) (bs : List Byte) : (s.writeBytes a bs).loaded = s.loaded := rfl
@[simp] theorem writeBytes_flagStore (a : Nat) (bs : List Byte) : (s.writeBytes a bs).flagStore = s.flagStore := rfl
@[simp] theorem writeBytes_mem (a : Nat) (bs : List Byte) : (s.writeBytes a bs).mem = s.mem.writeAll s.params.fontBase a bs := rfl
@[simp] theorem writeBytes_params (a : Nat) (bs : List Byte) : (s.writeBytes a bs).params = s.params := rfl
@[simp] theorem writeBytes_draws (a : Nat) (bs : List Byte) : (s.writeBytes a bs).draws = s.draws := rfl
@[simp] theorem writeBytes_reg (a : Nat) (bs : List Byte) (y : Nibble) : (s.writeBytes a bs).reg y = s.reg y := rfl
@[simp] theorem writeBytes_key (a : Nat) (bs : List Byte) (k : Nibble) : (s.writeBytes a bs).key k = s.key k := rfl
@[simp] theorem writeBytes_pixel (a : Nat) (bs : List Byte) (c r : Nat) : (s.writeBytes a bs).pixel c r = s.pixel c r := rfl

/-! countDraw -/

@[simp] theorem countDraw_v : (s.countDraw).v = s.v := rfl
@[simp] theorem countDraw_i : (s.countDraw).i = s.i := rfl
@[simp] theorem countDraw_pc : (s.countDraw).pc = s.pc := rfl
@[simp] theorem countDraw_sp : (s.countDraw).sp = s.sp := rfl
@[simp] theorem countDraw_stk : (s.countDraw).stk = s.stk := rfl
@[simp] theorem countDraw_dt : (s.countDraw).dt = s.dt := rfl
@[simp] theorem countDraw_st : (s.countDraw).st = s.st := rfl
@[simp] theorem countDraw_keys : (s.countDraw).keys = s.keys := rfl
@[simp] theorem countDraw_krel : (s.countDraw).krel = s.krel := rfl
@[simp] theorem countDraw_res : (s.countDraw).res = s.res := rfl
@[simp] theorem countDraw_fb : (s.countDraw).fb = s.fb := rfl
@[simp] theorem countDraw_execState : (s.countDraw).execState = s.execState := rfl
@[simp] theorem countDraw_qcfg : (s.countDraw).qcfg = s.qcfg := rfl
@[simp] theorem countDraw_font : (s.countDraw).font = s.font := rfl
@[simp] theorem countDraw_err : (s.countDraw).err = s.err := rfl
@[simp] theorem countDraw_loaded : (s.countDraw).loaded = s.loaded := rfl
@[simp] theorem countDraw_flagStore : (s.countDraw).flagStore = s.flagStore := rfl
@[simp] theorem countDraw_mem : (s.countDraw).mem = s.mem := rfl
@[simp] theorem countDraw_params : (s.countDraw).params = s.params := rfl
@[simp] theorem countDraw_draws : (s.countDraw).draws = s.draws + 1 := rfl
@[simp] theorem countDraw_reg (y : Nibble) : (s.countDraw).reg y = s.reg y := rfl
@[simp] theorem countDraw_readByte (c : Nat) : (s.countDraw).readByte c = s.readByte c := rfl
@[simp] theorem countDraw_key (k : Nibble) : (s.countDraw).key k = s.key k := rfl
@[simp] theorem countDraw_pixel (c r : Nat) : (s.countDraw).pixel c r = s.pixel c r := rfl

end Sys2Proof.Machine.State
end

