-- ==== Sys2Proof/Laws/Registers.lean ====
section
/-! SUPPORT. What reading a register gives after each write of registers, and the numeric value of 12-bit addresses and flag bytes. -/

namespace Sys2Proof.Machine

@[simp] theorem toAddr_toNat (n : Nat) : (toAddr n).toNat = n % 0x1000 := by
  simp only [toAddr, memorySize, BitVec.toNat_ofNat]
  omega

theorem toAddr_toNat_of_lt {n : Nat} (h : n < 0x1000) : (toAddr n).toNat = n := by
  rw [toAddr_toNat, Nat.mod_eq_of_lt h]

/-- A 16-bit word already below 4096 is its own address. -/
theorem toAddr_of_toNat {w : Word} (h : w.toNat < 0x1000) : toAddr w.toNat = w := by
  apply BitVec.eq_of_toNat_eq
  rw [toAddr_toNat, Nat.mod_eq_of_lt h]

@[simp] theorem flagByte_toNat (b : Bool) : (flagByte b).toNat = b.toNat := by cases b <;> rfl

namespace State

variable (s : State)

@[simp] theorem reg_setReg (x y : Nibble) (b : Byte) : (s.setReg x b).reg y = if y = x then b else s.reg y := by
  simp only [reg, setReg, Vector.getElem_set, BitVec.toNat_inj, eq_comm (a := x)]

theorem reg_setReg_self (x : Nibble) (b : Byte) : (s.setReg x b).reg x = b := by simp

theorem reg_setReg_ne {x y : Nibble} (b : Byte) (h : y ≠ x) : (s.setReg x b).reg y = s.reg y := by simp [h]

/-- VF holds the flag; another register holds the result if it is the destination. -/
@[simp] theorem reg_setResult (x y : Nibble) (r : Byte) (f : Bool) :
    (s.setResult x r f).reg y = if y = flagIndex then flagByte f else if y = x then r else s.reg y := by
  simp only [setResult, setFlag, reg_setReg]

/-- VF ends holding the flag, also when it is the destination (41_alu.md R141). -/
theorem reg_setResult_flag (x : Nibble) (r : Byte) (f : Bool) : (s.setResult x r f).reg 0xF = flagByte f :=
  (s.reg_setResult x flagIndex r f).trans (if_pos rfl)

/-- A destination other than VF ends holding the result. -/
theorem reg_setResult_dest {x : Nibble} (r : Byte) (f : Bool) (h : x ≠ 0xF) : (s.setResult x r f).reg x = r :=
  (s.reg_setResult x x r f).trans ((if_neg h).trans (if_pos rfl))

/-- A result and a flag leave every register but the destination and VF. -/
theorem setResult_regs (x : Nibble) (r : Byte) (f : Bool) : SameRegsBut [x, 0xF] s (s.setResult x r f) := by
  intro z hz
  have hx : z ≠ x := fun e => hz (by simp [e])
  have hf : z ≠ flagIndex := fun e => hz (by simp [e, flagIndex])
  rw [reg_setResult, if_neg hf, if_neg hx]

@[simp] theorem reg_setFlag (y : Nibble) (f : Bool) :
    (s.setFlag f).reg y = if y = flagIndex then flagByte f else s.reg y := by
  simp only [setFlag, reg_setReg]

theorem fillVector_getElem (f : Nat → Byte) (n : Nat) (v : Vector Byte 16) (k : Nat) (hk : k < 16) :
    (fillVector f n v)[k] = if k < n then f k else v[k] := by
  induction n with
  | zero => simp [fillVector]
  | succ n ih =>
    simp only [fillVector, Vector.getElem_setIfInBounds, ih]
    by_cases h : n = k
    · subst h; simp
    · have : k < n + 1 ↔ k < n := by omega
      simp [h, this]

@[simp] theorem reg_fillRegs (f : Nat → Byte) (n : Nat) (y : Nibble) :
    (s.fillRegs f n).reg y = if y.toNat < n then f y.toNat else s.reg y :=
  fillVector_getElem f n s.v y.toNat y.isLt

/-- The list FX55 and FX75 write holds V0 up, in order. -/
theorem regList_length {n : Nat} (h : n ≤ 16) : (s.regList n).length = n := by
  simp [regList, h]

theorem regList_getD {n : Nat} (y : Nibble) (h : y.toNat < n) : (s.regList n).getD y.toNat 0 = s.reg y := by
  have hy := y.isLt
  simp only [regList, reg, List.getD_eq_getElem?_getD, List.getElem?_take, h, if_true]
  rw [Vector.getElem?_toList, Vector.getElem?_eq_getElem (by omega)]
  rfl

end State

end Sys2Proof.Machine
end

