-- ==== Sys2Proof/Laws/Memory.lean ====
section
/-! SUPPORT. Memory: a read after a write, and the canonical form that every write keeps. -/

namespace Sys2Proof.Machine

variable {base : FontBase}

namespace Memory

theorem wfFrom_cons {lo k : Nat} {c : Byte} {m : Memory} :
    wfFrom base lo ((k, c) :: m) = true ↔ lo ≤ k ∧ k < memorySize ∧ c ≠ resetByte base k ∧ wfFrom base (k + 1) m = true := by
  simp [wfFrom, and_assoc]

theorem wfFrom_mono {lo lo' : Nat} {m : Memory} (h : wfFrom base lo m = true) (hl : lo' ≤ lo) : wfFrom base lo' m = true := by
  cases m with
  | nil => rfl
  | cons cell m =>
    obtain ⟨k, c⟩ := cell
    rw [wfFrom_cons] at h ⊢
    exact ⟨Nat.le_trans hl h.1, h.2⟩

/-- Below its first address a canonical memory reads as the reset contents. -/
theorem read_of_wfFrom {lo a : Nat} {m : Memory} (h : wfFrom base lo m = true) (ha : a < lo) : m.read base a = resetByte base a := by
  induction m generalizing lo with
  | nil => rfl
  | cons cell m ih =>
    obtain ⟨k, c⟩ := cell
    obtain ⟨h1, _, _, h4⟩ := wfFrom_cons.1 h
    rw [read, if_neg (by omega), ih h4 (by omega)]

/-- Read after write. -/
theorem read_write {lo : Nat} {m : Memory} (h : wfFrom base lo m = true) (a c : Nat) (b : Byte) :
    (m.write base a b).read base c = if c = a then b else m.read base c := by
  induction m generalizing lo with
  | nil =>
    by_cases hb : b = resetByte base a
    · by_cases hc : c = a <;> simp [write, read, hb, hc]
    · by_cases hc : c = a
      · simp [write, read, hb, hc]
      · simp [write, read, hb, hc, eq_comm (a := a)]
  | cons cell m ih =>
    obtain ⟨k, d⟩ := cell
    obtain ⟨_, _, _, h4⟩ := wfFrom_cons.1 h
    rw [write]
    by_cases h1 : a < k
    · rw [if_pos h1]
      by_cases hb : b = resetByte base a
      · rw [if_pos hb]
        by_cases hc : c = a
        · subst hc
          rw [if_pos rfl, read, if_neg (by omega), read_of_wfFrom h4 (by omega), hb]
        · rw [if_neg hc]
      · rw [if_neg hb, read]
        by_cases hc : c = a
        · rw [if_pos hc.symm, if_pos hc]
        · rw [if_neg (Ne.symm hc), if_neg hc]
    · rw [if_neg h1]
      by_cases h2 : a = k
      · rw [if_pos h2]
        subst h2
        by_cases hb : b = resetByte base a
        · rw [if_pos hb]
          by_cases hc : c = a
          · subst hc
            rw [if_pos rfl, read_of_wfFrom h4 (by omega), hb]
          · rw [if_neg hc, read, if_neg (Ne.symm hc)]
        · rw [if_neg hb, read]
          by_cases hc : c = a
          · rw [if_pos hc.symm, if_pos hc]
          · rw [if_neg (Ne.symm hc), if_neg hc, read, if_neg (Ne.symm hc)]
      · rw [if_neg h2, read, ih h4]
        by_cases hc : c = a
        · subst hc
          rw [if_neg (Ne.symm h2), if_pos rfl, if_pos rfl]
        · rw [if_neg hc, if_neg hc, read]

/-- A write keeps the canonical form. -/
theorem wfFrom_write {lo a : Nat} {m : Memory} (b : Byte) (h : wfFrom base lo m = true) (hl : lo ≤ a) (ha : a < memorySize) :
    wfFrom base lo (m.write base a b) = true := by
  induction m generalizing lo with
  | nil =>
    by_cases hb : b = resetByte base a
    · simp [write, hb, wfFrom]
    · simp [write, hb, wfFrom, hl, ha]
  | cons cell m ih =>
    obtain ⟨k, d⟩ := cell
    obtain ⟨h1, h2, h3, h4⟩ := wfFrom_cons.1 h
    rw [write]
    by_cases c1 : a < k
    · rw [if_pos c1]
      by_cases hb : b = resetByte base a
      · rw [if_pos hb]; exact h
      · rw [if_neg hb]
        exact wfFrom_cons.2 ⟨hl, ha, hb, wfFrom_cons.2 ⟨c1, h2, h3, h4⟩⟩
    · rw [if_neg c1]
      by_cases c2 : a = k
      · rw [if_pos c2]
        by_cases hb : b = resetByte base a
        · rw [if_pos hb]
          exact wfFrom_mono h4 (by omega)
        · rw [if_neg hb]
          exact wfFrom_cons.2 ⟨hl, ha, hb, c2 ▸ h4⟩
      · rw [if_neg c2]
        exact wfFrom_cons.2 ⟨h1, h2, h3, ih h4 (by omega)⟩

theorem wf_write {a : Nat} {m : Memory} (b : Byte) (h : m.wf base = true) (ha : a < memorySize) : (m.write base a b).wf base = true :=
  wfFrom_write b h (Nat.zero_le a) ha

/-- Consecutive writes keep the canonical form. -/
theorem wf_writeAll (bs : List Byte) {m : Memory} (h : m.wf base = true) (a : Nat) : (m.writeAll base a bs).wf base = true := by
  induction bs generalizing a m with
  | nil => exact h
  | cons b bs ih => exact ih (wf_write b h (Nat.mod_lt _ (by decide))) (a + 1)

/-- Consecutive writes leave every address outside theirs alone. -/
theorem read_writeAll_outside (bs : List Byte) {m : Memory} (h : m.wf base = true) (a c : Nat)
    (hc : ∀ k, k < bs.length → (a + k) % memorySize ≠ c) : (m.writeAll base a bs).read base c = m.read base c := by
  induction bs generalizing a m with
  | nil => rfl
  | cons b bs ih =>
    have h0 : a % memorySize ≠ c := hc 0 (Nat.succ_pos _)
    rw [writeAll, ih (wf_write b h (Nat.mod_lt _ (by decide))) (a + 1), read_write h, if_neg (Ne.symm h0)]
    intro k hk
    have := hc (k + 1) (Nat.succ_lt_succ hk)
    rwa [Nat.add_assoc, Nat.add_comm 1 k]

/-- Consecutive writes of at most 4096 bytes put each byte where it goes. -/
theorem read_writeAll (bs : List Byte) {m : Memory} (h : m.wf base = true) (a k : Nat) (hl : bs.length ≤ memorySize)
    (hk : k < bs.length) : (m.writeAll base a bs).read base ((a + k) % memorySize) = bs.getD k 0 := by
  induction bs generalizing a k m with
  | nil => exact absurd hk (Nat.not_lt_zero k)
  | cons b bs ih =>
    rw [List.length_cons] at hl hk
    have hw := wf_write (a := a % memorySize) b h (Nat.mod_lt _ (by decide))
    rw [writeAll]
    cases k with
    | zero =>
      rw [read_writeAll_outside bs hw, read_write h, Nat.add_zero, if_pos rfl]
      · rfl
      · intro j hj
        simp only [memorySize] at hl ⊢
        omega
    | succ k =>
      have := ih hw (a + 1) k (by omega) (by omega)
      rw [Nat.add_assoc, Nat.add_comm 1 k] at this
      rw [this]
      rfl

end Memory

namespace State

variable {s : State}

/-- Each byte of `writeBytes` reads back. -/
theorem readByte_writeBytes (h : s.mem.wf s.params.fontBase = true) (a : Nat) (bs : List Byte) (k : Nat)
    (hl : bs.length ≤ 0x1000) (hk : k < bs.length) : (s.writeBytes a bs).readByte (a + k) = bs.getD k 0 :=
  Memory.read_writeAll bs h a k hl hk

/-- `writeBytes` changes only its own bytes. -/
theorem writeBytes_outside (h : s.mem.wf s.params.fontBase = true) (a : Nat) (bs : List Byte) :
    SameBytesOutside a bs.length s (s.writeBytes a bs) :=
  fun b hb => Memory.read_writeAll_outside bs h a (b % memorySize) hb

theorem writeBytes_wf (h : s.mem.wf s.params.fontBase = true) (a : Nat) (bs : List Byte) :
    (s.writeBytes a bs).mem.wf (s.writeBytes a bs).params.fontBase = true :=
  Memory.wf_writeAll bs h a

/-- A read sees the address modulo 4096 (20_memory.md R61). -/
theorem readByte_mod (s : State) (a : Nat) : s.readByte (a % 0x1000) = s.readByte a := by
  simp only [readByte, memorySize, Nat.mod_mod]

theorem readByte_congr (s : State) {a b : Nat} (h : a % 0x1000 = b % 0x1000) : s.readByte a = s.readByte b := by
  simp only [readByte, memorySize, h]

end State

end Sys2Proof.Machine
end

