-- ==== Sys2Proof/Laws/Screen.lean ====
section
/-! SUPPORT. The framebuffer: its shape is kept, and what each primitive leaves at every pixel. -/

namespace Sys2Proof.Machine.Grid

variable {res : Resolution} {g : Grid}

theorem wf_iff : g.wf res = true ↔ g.length = res.height ∧ ∀ row ∈ g, row.length = res.width := by
  simp [wf]

theorem wf_build (f : Nat → Nat → Bool) : (build res f).wf res = true := by
  simp [wf_iff, build]

@[simp] theorem pixel_build (f : Nat → Nat → Bool) {c r : Nat} (hc : c < res.width) (hr : r < res.height) :
    (build res f).pixel c r = f c r := by
  simp [pixel, build, hc, hr]

theorem wf_blank : (blank res).wf res = true := by
  simp only [wf_iff, blank, List.length_replicate, true_and]
  intro row h
  rw [List.eq_of_mem_replicate h, List.length_replicate]

@[simp] theorem pixel_blank (c r : Nat) : (blank res).pixel c r = false := by
  simp only [pixel, blank, List.getD_eq_getElem?_getD, List.getElem?_replicate]
  by_cases hr : r < res.height
  · simp only [hr, if_true, Option.getD_some, List.getElem?_replicate]
    split <;> rfl
  · simp [hr]

theorem wf_flip (h : g.wf res = true) (c r : Nat) : (g.flip c r).wf res = true := by
  rw [wf_iff] at h ⊢
  refine ⟨by simp [flip, h.1], fun row hrow => ?_⟩
  obtain ⟨k, hk, rfl⟩ := List.mem_iff_getElem.1 hrow
  simp only [flip, List.length_modify] at hk
  have := h.2 g[k] (List.getElem_mem hk)
  simp only [flip, List.getElem_modify]
  split <;> simp [this]

/-- Flipping a pixel inside the grid changes that pixel only. -/
theorem pixel_flip (h : g.wf res = true) {c r : Nat} (hc : c < res.width) (hr : r < res.height) (c' r' : Nat) :
    (g.flip c r).pixel c' r' = (g.pixel c' r' ^^ decide (c' = c ∧ r' = r)) := by
  rw [wf_iff] at h
  have hrow : (g.getD r []).length = res.width := by
    have hr' : r < g.length := h.1 ▸ hr
    rw [List.getD_eq_getElem _ _ hr']
    exact h.2 _ (List.getElem_mem hr')
  by_cases e : r' = r
  · subst e
    have hr' : r' < g.length := h.1 ▸ hr
    rw [List.getD_eq_getElem _ _ hr'] at hrow
    by_cases e2 : c' = c
    · subst e2
      simp [pixel, flip, List.getD_eq_getElem?_getD, hr', hrow, hc]
    · simp [pixel, flip, List.getD_eq_getElem?_getD, hr', e2, Ne.symm e2]
  · simp [pixel, flip, List.getD_eq_getElem?_getD, e, Ne.symm e]

/-- The sprite row, clipped: which pixels one pass of the inner loop toggles. -/
theorem blitRow_spec (h : g.wf res = true) (bits : Nat → Nat → Bool) (nb c0 r0 row : Nat) (hit : Bool) :
    (blitRow res bits nb c0 r0 (g, hit) row).1.wf res = true ∧
    (∀ c r, (blitRow res bits nb c0 r0 (g, hit) row).1.pixel c r =
      (g.pixel c r ^^ (decide (c < res.width ∧ r < res.height ∧ r = r0 + row ∧ c0 ≤ c ∧ c < c0 + nb) && bits row (c - c0)))) ∧
    ((blitRow res bits nb c0 r0 (g, hit) row).2 = true ↔ hit = true ∨
      ∃ col, col < nb ∧ bits row col = true ∧ c0 + col < res.width ∧ r0 + row < res.height ∧
        g.pixel (c0 + col) (r0 + row) = true) := by
  induction nb with
  | zero =>
    refine ⟨h, fun c r => ?_, by simp [blitRow]⟩
    have : ¬(c < res.width ∧ r < res.height ∧ r = r0 + row ∧ c0 ≤ c ∧ c < c0 + 0) := by omega
    simp only [this, decide_false, Bool.false_and, Bool.xor_false]
    rfl
  | succ nb ih =>
    obtain ⟨hw, hp, hh⟩ := ih
    have step : blitRow res bits (nb + 1) c0 r0 (g, hit) row =
        blitBit res bits c0 r0 row (blitRow res bits nb c0 r0 (g, hit) row) nb := by
      simp only [blitRow, List.range_succ, List.foldl_append, List.foldl_cons, List.foldl_nil]
    rw [step]
    generalize blitRow res bits nb c0 r0 (g, hit) row = acc at hw hp hh
    by_cases hb : bits row nb = true ∧ c0 + nb < res.width ∧ r0 + row < res.height
    · obtain ⟨b1, b2, b3⟩ := hb
      have hx : blitBit res bits c0 r0 row acc nb =
          (acc.1.flip (c0 + nb) (r0 + row), acc.2 || acc.1.pixel (c0 + nb) (r0 + row)) := by
        simp [blitBit, b1, b2, b3]
      rw [hx]
      have hold : acc.1.pixel (c0 + nb) (r0 + row) = g.pixel (c0 + nb) (r0 + row) := by
        rw [hp]; simp
      refine ⟨wf_flip hw _ _, fun c r => ?_, ?_⟩
      · rw [pixel_flip hw b2 b3, hp, Bool.xor_assoc]
        congr 1
        by_cases e : c = c0 + nb ∧ r = r0 + row
        · obtain ⟨rfl, rfl⟩ := e
          simp [b1, b2, b3]
        · have e' : ((c < res.width ∧ r < res.height ∧ r = r0 + row ∧ c0 ≤ c ∧ c < c0 + (nb + 1)) ↔
              (c < res.width ∧ r < res.height ∧ r = r0 + row ∧ c0 ≤ c ∧ c < c0 + nb)) := by omega
          simp [e, e']
      · simp only [Bool.or_eq_true, hh, hold]
        constructor
        · rintro ((h1 | ⟨col, h1, h2⟩) | h1)
          · exact .inl h1
          · exact .inr ⟨col, by omega, h2⟩
          · exact .inr ⟨nb, by omega, b1, b2, b3, h1⟩
        · rintro (h1 | ⟨col, h1, h2⟩)
          · exact .inl (.inl h1)
          · by_cases e : col = nb
            · subst e; exact .inr h2.2.2.2
            · exact .inl (.inr ⟨col, by omega, h2⟩)
    · have hx : blitBit res bits c0 r0 row acc nb = acc := by
        simp only [blitBit, Bool.and_eq_true, decide_eq_true_eq, and_assoc, if_neg hb]
      rw [hx]
      refine ⟨hw, fun c r => ?_, ?_⟩
      · rw [hp]
        congr 1
        by_cases e : c < res.width ∧ r < res.height ∧ r = r0 + row ∧ c = c0 + nb
        · obtain ⟨e1, e2, rfl, rfl⟩ := e
          have : bits row nb = false := by
            cases hbit : bits row nb
            · rfl
            · exact absurd ⟨hbit, e1, e2⟩ hb
          simp [this]
        · have e' : ((c < res.width ∧ r < res.height ∧ r = r0 + row ∧ c0 ≤ c ∧ c < c0 + (nb + 1)) ↔
              (c < res.width ∧ r < res.height ∧ r = r0 + row ∧ c0 ≤ c ∧ c < c0 + nb)) := by omega
          simp [e']
      · rw [hh]
        constructor
        · rintro (h1 | ⟨col, h1, h2⟩)
          · exact .inl h1
          · exact .inr ⟨col, by omega, h2⟩
        · rintro (h1 | ⟨col, h1, h2⟩)
          · exact .inl h1
          · by_cases e : col = nb
            · subst e; exact absurd ⟨h2.1, h2.2.1, h2.2.2.1⟩ hb
            · exact .inr ⟨col, by omega, h2⟩

/-- The whole sprite (44_display.md R220): the shape is kept, each covered pixel of the grid toggles, and the collision bit
says that a covered pixel was set before the draw. -/
theorem blit_spec (h : g.wf res = true) (bits : Nat → Nat → Bool) (rows nb x0 y0 : Nat) :
    (g.blit res bits rows nb x0 y0).1.wf res = true ∧
    (∀ c r, (g.blit res bits rows nb x0 y0).1.pixel c r = (g.pixel c r ^^ covered res bits rows nb x0 y0 c r)) ∧
    ((g.blit res bits rows nb x0 y0).2 = true ↔
      ∃ c r, covered res bits rows nb x0 y0 c r = true ∧ g.pixel c r = true) := by
  simp only [blit, covered]
  generalize x0 % res.width = c0
  generalize y0 % res.height = r0
  induction rows with
  | zero =>
    refine ⟨h, fun c r => ?_, ?_⟩
    · have : ¬(c < res.width ∧ r < res.height ∧ r0 ≤ r ∧ r < r0 + 0 ∧ c0 ≤ c ∧ c < c0 + nb) := by omega
      simp only [this, decide_false, Bool.false_and, Bool.xor_false]
      rfl
    · simp; omega
  | succ rows ih =>
    obtain ⟨hw, hp, hh⟩ := ih
    simp only [List.range_succ, List.foldl_append, List.foldl_cons, List.foldl_nil]
    generalize (List.range rows).foldl (blitRow res bits nb c0 r0) (g, false) = acc at hw hp hh
    obtain ⟨g1, hit⟩ := acc
    obtain ⟨hw1, hp1, hh1⟩ := blitRow_spec hw bits nb c0 r0 rows hit
    refine ⟨hw1, fun c r => ?_, ?_⟩
    · rw [hp1, hp, Bool.xor_assoc]
      congr 1
      by_cases e : r = r0 + rows
      · subst e
        simp
      · have e1 : ¬(c < res.width ∧ r < res.height ∧ r = r0 + rows ∧ c0 ≤ c ∧ c < c0 + nb) := by omega
        have e2 : (c < res.width ∧ r < res.height ∧ r0 ≤ r ∧ r < r0 + (rows + 1) ∧ c0 ≤ c ∧ c < c0 + nb) ↔
            (c < res.width ∧ r < res.height ∧ r0 ≤ r ∧ r < r0 + rows ∧ c0 ≤ c ∧ c < c0 + nb) := by omega
        simp only [e1, e2, decide_false, Bool.false_and, Bool.xor_false]
    · rw [hh1, hh]
      simp only [Bool.and_eq_true, decide_eq_true_eq]
      constructor
      · rintro (⟨c, r, ⟨h1, h2⟩, h3⟩ | ⟨col, h1, h2, h3, h4, h5⟩)
        · exact ⟨c, r, ⟨by omega, h2⟩, h3⟩
        · rw [hp] at h5
          refine ⟨c0 + col, r0 + rows, ⟨by omega, by simpa using h2⟩, by simpa using h5⟩
      · rintro ⟨c, r, ⟨h1, h2⟩, h3⟩
        by_cases e : r = r0 + rows
        · subst e
          refine .inr ⟨c - c0, by omega, by simpa using h2, by omega, by omega, ?_⟩
          rw [hp, show c0 + (c - c0) = c by omega]
          simpa using h3
        · exact .inl ⟨c, r, ⟨by omega, h2⟩, h3⟩

/-! The scrolls, at every pixel of the grid, and their shape. -/

theorem wf_scrollDown (n : Nat) : (g.scrollDown res n).wf res = true := wf_build _
theorem wf_scrollUp (n : Nat) : (g.scrollUp res n).wf res = true := wf_build _
theorem wf_scrollRight : (g.scrollRight res).wf res = true := wf_build _
theorem wf_scrollLeft : (g.scrollLeft res).wf res = true := wf_build _

theorem pixel_scrollDown (n : Nat) {c r : Nat} (hc : c < res.width) (hr : r < res.height) :
    (g.scrollDown res n).pixel c r = if n ≤ r then g.pixel c (r - n) else false := pixel_build _ hc hr

theorem pixel_scrollUp (n : Nat) {c r : Nat} (hc : c < res.width) (hr : r < res.height) :
    (g.scrollUp res n).pixel c r = if r + n < res.height then g.pixel c (r + n) else false := pixel_build _ hc hr

theorem pixel_scrollRight {c r : Nat} (hc : c < res.width) (hr : r < res.height) :
    (g.scrollRight res).pixel c r = if 4 ≤ c then g.pixel (c - 4) r else false := pixel_build _ hc hr

theorem pixel_scrollLeft {c r : Nat} (hc : c < res.width) (hr : r < res.height) :
    (g.scrollLeft res).pixel c r = if c + 4 < res.width then g.pixel (c + 4) r else false := pixel_build _ hc hr

end Sys2Proof.Machine.Grid
end

