-- ==== Sys2Proof/Laws/Ops.lean ====
section
/-! SUPPORT. What each composite operation can do, once: stack, diagnostics, font, skip, advance, drawing. -/

namespace Sys2Proof.Machine.State

variable (s : State)

/-! ### Stack and diagnostics -/

theorem push_of_room (a : Word) (h : s.sp < s.params.stackCap) : s.push a = s.setStack (s.sp + 1) (s.stk.set s.sp a) := if_pos h

theorem push_of_full (a : Word) (h : s.params.stackCap ≤ s.sp) : s.push a = s.raiseDiag 3 := if_neg (by omega)

theorem popState_of_live (h : 0 < s.sp) : s.popState = s.setStack (s.sp - 1) s.stk := if_pos h

theorem popState_of_empty (h : s.sp = 0) : s.popState = s.raiseDiag 4 := if_neg (by omega)

theorem popValue_of_live (h : 0 < s.sp) : s.popValue = (s.stk.getD (s.sp - 1) 0).toNat % 0x1000 := if_pos h

theorem popValue_of_empty (h : s.sp = 0) : s.popValue = 1 := if_neg (by omega)

theorem raiseDiag_eq (code : Nat) : s.raiseDiag code = s.setErr (s.err ||| 1#8 <<< code) := rfl

/-- A diagnostic bit sets nothing outside bits 2 to 5 (60_exceptions.md R263). -/
theorem raiseDiag_reserved (code : Nat) (h : 2 ≤ code) (h' : code ≤ 5) (he : s.err &&& 0xC3 = 0) : (s.raiseDiag code).err &&& 0xC3 = 0 := by
  have : code = 2 ∨ code = 3 ∨ code = 4 ∨ code = 5 := by omega
  rw [raiseDiag_eq, setErr_err]
  generalize s.err = e at he ⊢
  revert e
  rcases this with rfl | rfl | rfl | rfl <;> decide

/-! ### Skips and the advance of I -/

theorem skipIf_eq (b : Bool) : s.skipIf b = if b then s.setPc (s.pc.toNat + 2) else s := rfl

theorem advanceI_eq (x : Nibble) : s.advanceI x = if s.qcfg.blockTransferAdvancesI then s else s.setI (s.i.toNat + x.toNat + 1) := rfl

theorem advanceI_cases (x : Nibble) : s.advanceI x = s ∨ s.advanceI x = s.setI (s.i.toNat + x.toNat + 1) := by
  rw [advanceI_eq]; split
  · exact .inl rfl
  · exact .inr rfl

@[simp] theorem reg_advanceI (x y : Nibble) : (s.advanceI x).reg y = s.reg y := by
  rcases s.advanceI_cases x with h | h <;> simp [h]

@[simp] theorem readByte_advanceI (x : Nibble) (a : Nat) : (s.advanceI x).readByte a = s.readByte a := by
  rcases s.advanceI_cases x with h | h <;> simp [h]

@[simp] theorem setFlag_readByte (b : Bool) (a : Nat) : (s.setFlag b).readByte a = s.readByte a := rfl

/-! ### The extension gate -/

theorem whenExtended_on (t : State) (h : s.qcfg.extendedInstructionSet = true) : s.whenExtended t = t := if_pos h

theorem whenExtended_off (t : State) (h : s.qcfg.extendedInstructionSet = false) : s.whenExtended t = s := if_neg (by simp [h])

/-! ### Fonts -/

theorem needFont_same (f : FontSet) (h : s.font = f) : s.needFont f = s := if_pos h

theorem needFont_other (f : FontSet) (h : s.font ≠ f) : s.needFont f = s.loadFont f := if_neg h

@[simp] theorem loFont_length : loFont.length = 80 := rfl

@[simp] theorem loadFont_params (f : FontSet) : (s.loadFont f).params = s.params := by simp [loadFont]

@[simp] theorem loadFont_fontTable (f g : FontSet) : (s.loadFont f).fontTable g = s.fontTable g := by
  cases g <;> simp [fontTable]

theorem fontTable_length (hp : s.params.Valid) (f : FontSet) : (s.fontTable f).length ≤ 512 := by
  cases f
  · simp [fontTable]
  · exact hp.hiFontShort

/-- `LoadFont` (20_memory.md R69), byte by byte: the table at the font base, 0 in the rest of 0x000 to 0x1FF, every other byte as before. -/
theorem readByte_loadFont (h : s.mem.wf s.params.fontBase = true) (hp : s.params.Valid) (f : FontSet) {a : Nat} (ha : a < 0x1000) :
    (s.loadFont f).readByte a =
      if s.params.fontBase.address ≤ a ∧ a < s.params.fontBase.address + (s.fontTable f).length then
        (s.fontTable f).getD (a - s.params.fontBase.address) 0
      else if a < 0x200 then 0 else s.readByte a := by
  have hl := s.fontTable_length hp f
  have hb : s.params.fontBase.address ≤ 0x50 := by cases s.params.fontBase <;> decide
  have hw := writeBytes_wf h 0 (List.replicate fontRegionSize 0)
  simp only [loadFont, setFont_readByte]
  have hzero : (s.writeBytes 0 (List.replicate fontRegionSize 0)).readByte a = if a < 0x200 then 0 else s.readByte a := by
    by_cases hlow : a < 0x200
    · rw [if_pos hlow]
      have hlen : (List.replicate fontRegionSize (0 : Byte)).length = 0x200 := List.length_replicate
      have := readByte_writeBytes h 0 (List.replicate fontRegionSize 0) a (by omega) (by omega)
      rw [Nat.zero_add] at this
      rw [this, List.getD_replicate]
      exact hlow
    · rw [if_neg hlow]
      apply writeBytes_outside h
      rw [List.length_replicate]
      simp only [fontRegionSize]
      omega
  by_cases hin : s.params.fontBase.address ≤ a ∧ a < s.params.fontBase.address + (s.fontTable f).length
  · rw [if_pos hin]
    have := readByte_writeBytes hw s.params.fontBase.address (s.fontTable f) (a - s.params.fontBase.address) (by omega) (by omega)
    rwa [Nat.add_sub_cancel' hin.1] at this
  · rw [if_neg hin, ← hzero]
    apply writeBytes_outside hw
    omega

theorem loadFont_wf (h : s.mem.wf s.params.fontBase = true) (f : FontSet) :
    (s.loadFont f).mem.wf (s.loadFont f).params.fontBase = true := by
  simp only [loadFont, setFont_mem, setFont_params]
  exact writeBytes_wf (writeBytes_wf h _ _) _ _

/-- `needFont` stores only to `fontBlocks`. -/
theorem needFont_outside (h : s.mem.wf s.params.fontBase = true) (f : FontSet) :
    SameBytesOutsideBlocks (fontBlocks s f) s (s.needFont f) := by
  intro b hb
  by_cases hf : s.font = f
  · rw [s.needFont_same f hf]
  · rw [s.needFont_other f hf]
    rw [fontBlocks, if_neg hf] at hb
    simp only [loadFont, setFont_readByte]
    rw [writeBytes_outside (writeBytes_wf h 0 (List.replicate fontRegionSize 0)) _ _ b
        (hb (s.params.fontBase.address, (s.fontTable f).length) (by simp)),
      writeBytes_outside h 0 (List.replicate fontRegionSize 0) b]
    rw [List.length_replicate]
    exact hb (0, fontRegionSize) (by simp)

/-! ### Drawing -/

/-- What a draw leaves: the grid's shape, every covered pixel toggled, and VF the collision (44_display.md R220, R222). -/
theorem drawSprite_spec (h : s.fb.wf s.res = true) (x y : Nibble) (rows : Nat) (wide : Bool) :
    (s.drawSprite x y rows wide).fb.wf s.res = true ∧
    (∀ c r, (s.drawSprite x y rows wide).pixel c r = (s.pixel c r ^^
      Grid.covered s.res (s.spriteBit wide) rows (spriteColumns wide) (s.reg x).toNat (s.reg y).toNat c r)) ∧
    (∀ z, (s.drawSprite x y rows wide).reg z = if z = flagIndex then flagByte (s.blitAt x y rows wide).2 else s.reg z) ∧
    ((s.blitAt x y rows wide).2 = true ↔ ∃ c r, Grid.covered s.res (s.spriteBit wide) rows (spriteColumns wide)
      (s.reg x).toNat (s.reg y).toNat c r = true ∧ s.pixel c r = true) := by
  obtain ⟨h1, h2, h3⟩ := Grid.blit_spec h (s.spriteBit wide) rows (spriteColumns wide) (s.reg x).toNat (s.reg y).toNat
  exact ⟨h1, h2, fun z => by rw [drawSprite, reg_setFlag]; rfl, h3⟩

end Sys2Proof.Machine.State
end

