-- ==== Sys2Proof/Laws/Frame.lean ====
section
/-! SUPPORT. The frame of each operation: the parts it may write. -/

namespace Sys2Proof.Machine

theorem SameBut.refl (l : List Part) (s : State) : SameBut l s s := by
  intro p _
  cases p <;> simp [Part.same]

theorem SameBut.trans {l : List Part} {s t u : State} (h : SameBut l s t) (k : SameBut l t u) : SameBut l s u := by
  intro p hp
  have h := h p hp
  have k := k p hp
  cases p <;> simp_all [Part.same]

theorem SameBut.mono {l l' : List Part} {s t : State} (h : SameBut l s t) (hl : ∀ p, p ∈ l → p ∈ l') : SameBut l' s t :=
  fun p hp => h p fun hm => hp (hl p hm)

namespace State

variable (s : State)

theorem setReg_frame (x : Nibble) (b : Byte) : SameBut [.registers] s (s.setReg x b) := by
  intro p hp; cases p <;> simp_all [Part.same]

theorem fillRegs_frame (f : Nat → Byte) (n : Nat) : SameBut [.registers] s (s.fillRegs f n) := by
  intro p hp; cases p <;> simp_all [Part.same]

theorem setI_frame (n : Nat) : SameBut [.index] s (s.setI n) := by
  intro p hp; cases p <;> simp_all [Part.same]

theorem setPc_frame (n : Nat) : SameBut [.counter] s (s.setPc n) := by
  intro p hp; cases p <;> simp_all [Part.same]

theorem afterFetch_frame : SameBut [.counter] s s.afterFetch := by
  intro p hp; cases p <;> simp_all [Part.same]

theorem setStack_frame (sp : Nat) (stk : List Word) : SameBut [.stack] s (s.setStack sp stk) := by
  intro p hp; cases p <;> simp_all [Part.same]

theorem setErr_frame (e : Byte) : SameBut [.errors] s (s.setErr e) := by
  intro p hp; cases p <;> simp_all [Part.same]

theorem raiseDiag_frame (code : Nat) : SameBut [.errors] s (s.raiseDiag code) := s.setErr_frame _

theorem setDt_frame (b : Byte) : SameBut [.delayTimer] s (s.setDt b) := by
  intro p hp; cases p <;> simp_all [Part.same]

theorem setSt_frame (b : Byte) : SameBut [.soundTimer] s (s.setSt b) := by
  intro p hp; cases p <;> simp_all [Part.same]

theorem setExec_frame (e : ExecState) : SameBut [.dispatcher] s (s.setExec e) := by
  intro p hp; cases p <;> simp_all [Part.same]

theorem setFont_frame (f : FontSet) : SameBut [.fontSet] s (s.setFont f) := by
  intro p hp; cases p <;> simp_all [Part.same]

theorem setFlagStore_frame (bs : List Byte) : SameBut [.flagStore] s (s.setFlagStore bs) := by
  intro p hp; cases p <;> simp_all [Part.same]

theorem countDraw_frame : SameBut [.draws] s s.countDraw := by
  intro p hp; cases p <;> simp_all [Part.same]

theorem setScreen_frame (res : Resolution) (fb : Grid) : SameBut [.screen] s (s.setScreen res fb) := by
  intro p hp; cases p <;> simp_all [Part.same]

theorem writeBytes_frame (a : Nat) (bs : List Byte) : SameBut [.memory] s (s.writeBytes a bs) := by
  intro p hp; cases p <;> simp_all [Part.same]

theorem setKeypad_frame (levels : Vector Bool 16) (released : Option Nibble) : SameBut [.keypad] s (s.setKeypad levels released) := by
  intro p hp; cases p <;> simp_all [Part.same]

theorem setQcfg_frame (q : Quirks) : SameBut [.quirks] s (s.setQcfg q) := by
  intro p hp; cases p <;> simp_all [Part.same]

theorem setLoaded_frame (b : Bool) : SameBut [.loadedMark] s (s.setLoaded b) := by
  intro p hp; cases p <;> simp_all [Part.same]

/-! Composites, over the primitives above. -/

theorem setResult_frame (x : Nibble) (r : Byte) (f : Bool) : SameBut [.registers] s (s.setResult x r f) :=
  (s.setReg_frame x r).trans ((s.setReg x r).setReg_frame _ _)

theorem setBitwise_frame (x : Nibble) (r : Byte) : SameBut [.registers] s (s.setBitwise x r) := by
  rw [setBitwise]; split
  · exact s.setResult_frame _ _ _
  · exact s.setReg_frame _ _

theorem skipIf_frame (b : Bool) : SameBut [.counter] s (s.skipIf b) := by
  rw [skipIf]; split
  · exact s.setPc_frame _
  · exact SameBut.refl _ _

theorem push_frame (a : Word) : SameBut [.stack, .errors] s (s.push a) := by
  rw [push]; split
  · exact (s.setStack_frame _ _).mono (by simp)
  · exact (s.raiseDiag_frame _).mono (by simp)

theorem popState_frame : SameBut [.stack, .errors] s s.popState := by
  rw [popState]; split
  · exact (s.setStack_frame _ _).mono (by simp)
  · exact (s.raiseDiag_frame _).mono (by simp)

theorem advanceI_frame (x : Nibble) : SameBut [.index] s (s.advanceI x) := by
  rcases s.advanceI_cases x with h | h <;> rw [h]
  · exact SameBut.refl _ _
  · exact s.setI_frame _

theorem loadFont_frame (f : FontSet) : SameBut [.memory, .fontSet] s (s.loadFont f) :=
  ((s.writeBytes_frame _ _).mono (by simp)).trans
    (((State.writeBytes_frame _ _ _).mono (by simp)).trans ((State.setFont_frame _ _).mono (by simp)))

theorem needFont_frame (f : FontSet) : SameBut [.memory, .fontSet] s (s.needFont f) := by
  rw [needFont]; split
  · exact SameBut.refl _ _
  · exact s.loadFont_frame f

theorem drawSprite_frame (x y : Nibble) (rows : Nat) (wide : Bool) : SameBut [.screen, .registers] s (s.drawSprite x y rows wide) :=
  ((s.setScreen_frame _ _).mono (by simp)).trans ((State.setReg_frame _ _ _).mono (by simp))

theorem drawBase_frame (x y : Nibble) : SameBut [.screen, .registers] s (s.drawBase x y) := by
  rw [drawBase]; split
  · exact SameBut.refl _ _
  · exact s.drawSprite_frame _ _ _ _

theorem loadFlagRegs_frame (x : Nibble) : SameBut [.registers, .errors] s (s.loadFlagRegs x) := by
  have h := (s.fillRegs_frame (fun k => s.flagStore.getD k 0) (x.toNat + 1)).mono (l' := [.registers, .errors]) (by simp)
  simp only [loadFlagRegs]; split
  · exact h.trans ((State.raiseDiag_frame _ _).mono (by simp))
  · exact h

theorem whenExtended_frame {l : List Part} {t : State} (h : SameBut l s t) : SameBut l s (s.whenExtended t) := by
  rw [whenExtended]; split
  · exact h
  · exact SameBut.refl _ _

theorem awaitStep_frame (x : Nibble) : SameBut [.registers, .dispatcher] s (s.awaitStep x) := by
  rw [awaitStep]; split
  · exact ((s.setReg_frame _ _).mono (by simp)).trans ((State.setExec_frame _ _).mono (by simp))
  · exact SameBut.refl _ _

end State

end Sys2Proof.Machine
end

