-- ==== Sys2Proof/Laws/Invariant.lean ====
section
/-! SUPPORT. Each operation keeps the invariant of Safety.lean: one lemma per operation, which the proofs about steps cite. -/

namespace Sys2Proof.Machine.State.Inv

variable {s : State}

theorem toAddr_lt (n : Nat) : (toAddr n).toNat < 0x1000 := by
  rw [toAddr_toNat]
  omega

theorem setReg (h : s.Inv) (x : Nibble) (b : Byte) : (s.setReg x b).Inv :=
  ⟨h.pc, h.i, h.sp, h.stk, h.returnAddresses, h.fb, h.err, h.mem, h.params⟩

theorem fillRegs (h : s.Inv) (f : Nat → Byte) (n : Nat) : (s.fillRegs f n).Inv :=
  ⟨h.pc, h.i, h.sp, h.stk, h.returnAddresses, h.fb, h.err, h.mem, h.params⟩

theorem setI (h : s.Inv) (n : Nat) : (s.setI n).Inv :=
  ⟨h.pc, toAddr_lt n, h.sp, h.stk, h.returnAddresses, h.fb, h.err, h.mem, h.params⟩

theorem setPc (h : s.Inv) (n : Nat) : (s.setPc n).Inv :=
  ⟨toAddr_lt n, h.i, h.sp, h.stk, h.returnAddresses, h.fb, h.err, h.mem, h.params⟩

theorem guardPc_lt {pc : Word} (h : pc.toNat < 0x1000) : (guardPc pc).toNat < 0x1000 := by
  rw [guardPc]; split
  · decide
  · exact h

theorem afterFetch (h : s.Inv) : s.afterFetch.Inv :=
  ⟨guardPc_lt (toAddr_lt _), h.i, h.sp, h.stk, h.returnAddresses, h.fb, h.err, h.mem, h.params⟩

theorem setDt (h : s.Inv) (b : Byte) : (s.setDt b).Inv :=
  ⟨h.pc, h.i, h.sp, h.stk, h.returnAddresses, h.fb, h.err, h.mem, h.params⟩

theorem setSt (h : s.Inv) (b : Byte) : (s.setSt b).Inv :=
  ⟨h.pc, h.i, h.sp, h.stk, h.returnAddresses, h.fb, h.err, h.mem, h.params⟩

theorem setKeypad (h : s.Inv) (levels : Vector Bool 16) (released : Option Nibble) : (s.setKeypad levels released).Inv :=
  ⟨h.pc, h.i, h.sp, h.stk, h.returnAddresses, h.fb, h.err, h.mem, h.params⟩

theorem setExec (h : s.Inv) (e : ExecState) : (s.setExec e).Inv :=
  ⟨h.pc, h.i, h.sp, h.stk, h.returnAddresses, h.fb, h.err, h.mem, h.params⟩

theorem setQcfg (h : s.Inv) (q : Quirks) : (s.setQcfg q).Inv :=
  ⟨h.pc, h.i, h.sp, h.stk, h.returnAddresses, h.fb, h.err, h.mem, h.params⟩

theorem setFont (h : s.Inv) (f : FontSet) : (s.setFont f).Inv :=
  ⟨h.pc, h.i, h.sp, h.stk, h.returnAddresses, h.fb, h.err, h.mem, h.params⟩

theorem setLoaded (h : s.Inv) (b : Bool) : (s.setLoaded b).Inv :=
  ⟨h.pc, h.i, h.sp, h.stk, h.returnAddresses, h.fb, h.err, h.mem, h.params⟩

theorem setFlagStore (h : s.Inv) (bs : List Byte) : (s.setFlagStore bs).Inv :=
  ⟨h.pc, h.i, h.sp, h.stk, h.returnAddresses, h.fb, h.err, h.mem, h.params⟩

theorem countDraw (h : s.Inv) : s.countDraw.Inv :=
  ⟨h.pc, h.i, h.sp, h.stk, h.returnAddresses, h.fb, h.err, h.mem, h.params⟩

theorem writeBytes (h : s.Inv) (a : Nat) (bs : List Byte) : (s.writeBytes a bs).Inv :=
  ⟨h.pc, h.i, h.sp, h.stk, h.returnAddresses, h.fb, h.err, writeBytes_wf h.mem a bs, h.params⟩

theorem setScreen (h : s.Inv) {res : Resolution} {fb : Grid} (hf : fb.wf res = true) : (s.setScreen res fb).Inv :=
  ⟨h.pc, h.i, h.sp, h.stk, h.returnAddresses, hf, h.err, h.mem, h.params⟩

theorem raiseDiag (h : s.Inv) (code : Nat) (h2 : 2 ≤ code) (h5 : code ≤ 5) : (s.raiseDiag code).Inv :=
  ⟨h.pc, h.i, h.sp, h.stk, h.returnAddresses, h.fb, s.raiseDiag_reserved code h2 h5 h.err, h.mem, h.params⟩

/-! Composites. -/

theorem push (h : s.Inv) {a : Word} (ha : a.toNat < 0x1000) : (s.push a).Inv := by
  by_cases hr : s.sp < s.params.stackCap
  · rw [s.push_of_room a hr]
    refine ⟨h.pc, h.i, hr, by simp [h.stk], fun b hb => ?_, h.fb, h.err, h.mem, h.params⟩
    rcases List.mem_or_eq_of_mem_set hb with hm | rfl
    · exact h.returnAddresses b hm
    · exact ha
  · rw [s.push_of_full a (by omega)]
    exact h.raiseDiag 3 (by decide) (by decide)

theorem popState (h : s.Inv) : s.popState.Inv := by
  by_cases hl : 0 < s.sp
  · rw [s.popState_of_live hl]
    exact ⟨h.pc, h.i, Nat.le_trans (Nat.sub_le _ _) h.sp, h.stk, h.returnAddresses, h.fb, h.err, h.mem, h.params⟩
  · rw [s.popState_of_empty (by omega)]
    exact h.raiseDiag 4 (by decide) (by decide)

theorem skipIf (h : s.Inv) (b : Bool) : (s.skipIf b).Inv := by
  rw [skipIf_eq]; split
  · exact h.setPc _
  · exact h

theorem advanceI (h : s.Inv) (x : Nibble) : (s.advanceI x).Inv := by
  rcases s.advanceI_cases x with e | e <;> rw [e]
  · exact h
  · exact h.setI _

theorem setResult (h : s.Inv) (x : Nibble) (r : Byte) (f : Bool) : (s.setResult x r f).Inv := (h.setReg x r).setReg _ _

theorem setBitwise (h : s.Inv) (x : Nibble) (r : Byte) : (s.setBitwise x r).Inv := by
  rw [State.setBitwise]; split
  · exact h.setResult _ _ _
  · exact h.setReg _ _

theorem loadFont (h : s.Inv) (f : FontSet) : (s.loadFont f).Inv := ((h.writeBytes _ _).writeBytes _ _).setFont f

theorem needFont (h : s.Inv) (f : FontSet) : (s.needFont f).Inv := by
  rw [State.needFont]; split
  · exact h
  · exact h.loadFont f

theorem clearScreen (h : s.Inv) : s.clearScreen.Inv := h.setScreen Grid.wf_blank

theorem setMode (h : s.Inv) (res : Resolution) : (s.setMode res).Inv := h.setScreen Grid.wf_blank

theorem drawSprite (h : s.Inv) (x y : Nibble) (rows : Nat) (wide : Bool) : (s.drawSprite x y rows wide).Inv :=
  (h.setScreen (s.drawSprite_spec h.fb x y rows wide).1).setReg _ _

theorem drawBase (h : s.Inv) (x y : Nibble) : (s.drawBase x y).Inv := by
  rw [State.drawBase]; split
  · exact h
  · exact h.drawSprite _ _ _ _

theorem loadFlagRegs (h : s.Inv) (x : Nibble) : (s.loadFlagRegs x).Inv := by
  simp only [State.loadFlagRegs]; split
  · exact (h.fillRegs _ _).raiseDiag 5 (by decide) (by decide)
  · exact h.fillRegs _ _

theorem whenExtended (h : s.Inv) {t : State} (ht : t.Inv) : (s.whenExtended t).Inv := by
  rw [State.whenExtended]; split
  · exact ht
  · exact h

theorem awaitStep (h : s.Inv) (x : Nibble) : (s.awaitStep x).Inv := by
  rw [State.awaitStep]; split
  · exact (h.setReg _ _).setExec _
  · exact h

end Sys2Proof.Machine.State.Inv
end

