-- ==== Sys2Proof/Laws/PerInstr.lean ====
section
/-! SUPPORT. One lemma per constructor of Instr: the encoding agrees with the instruction's row of spec/opcode_table.json. -/

/-- The word of a well-formed instruction has the row's fixed bits at the row's values. -/
def Sys2Proof.Laws.TableRow.Statement (i : Sys2Proof.Instr) : Prop :=
  ∀ su : Sys2Proof.ScrollUp, i.wellFormed su = true → Sys2Proof.encode su i &&& i.rowMask = i.rowMatch su

namespace Sys2Proof.Laws.TableRow

theorem cls : Statement .cls := fun _ _ => and_ones _

theorem ret : Statement .ret := fun _ _ => and_ones _

theorem scd (n : Nibble) : Statement (.scd n) := fun _ _ => mask_fN _ _

theorem scu (n : Nibble) : Statement (.scu n) := by
  intro su h
  cases su
  · exact absurd h (by simp [Instr.wellFormed])
  · exact mask_fN _ _
  · exact mask_fN _ _

theorem scr : Statement .scr := fun _ _ => and_ones _

theorem scl : Statement .scl := fun _ _ => and_ones _

theorem exit : Statement .exit := fun _ _ => and_ones _

theorem low : Statement .low := fun _ _ => and_ones _

theorem high : Statement .high := fun _ _ => and_ones _

theorem sys (nnn : Addr) : Statement (.sys nnn) := fun _ _ => mask_fNNN _ _

theorem jp (nnn : Addr) : Statement (.jp nnn) := fun _ _ => mask_fNNN _ _

theorem call (nnn : Addr) : Statement (.call nnn) := fun _ _ => mask_fNNN _ _

theorem seImm (x : Nibble) (nn : Byte) : Statement (.seImm x nn) := fun _ _ => mask_fXNN _ _ _

theorem sneImm (x : Nibble) (nn : Byte) : Statement (.sneImm x nn) := fun _ _ => mask_fXNN _ _ _

theorem seReg (x : Nibble) (y : Nibble) : Statement (.seReg x y) := fun _ _ => mask_fXY _ _ _ _

theorem ldImm (x : Nibble) (nn : Byte) : Statement (.ldImm x nn) := fun _ _ => mask_fXNN _ _ _

theorem addImm (x : Nibble) (nn : Byte) : Statement (.addImm x nn) := fun _ _ => mask_fXNN _ _ _

theorem ldReg (x : Nibble) (y : Nibble) : Statement (.ldReg x y) := fun _ _ => mask_fXY _ _ _ _

theorem orReg (x : Nibble) (y : Nibble) : Statement (.orReg x y) := fun _ _ => mask_fXY _ _ _ _

theorem andReg (x : Nibble) (y : Nibble) : Statement (.andReg x y) := fun _ _ => mask_fXY _ _ _ _

theorem xorReg (x : Nibble) (y : Nibble) : Statement (.xorReg x y) := fun _ _ => mask_fXY _ _ _ _

theorem addReg (x : Nibble) (y : Nibble) : Statement (.addReg x y) := fun _ _ => mask_fXY _ _ _ _

theorem subReg (x : Nibble) (y : Nibble) : Statement (.subReg x y) := fun _ _ => mask_fXY _ _ _ _

theorem shrReg (x : Nibble) (y : Nibble) : Statement (.shrReg x y) := fun _ _ => mask_fXY _ _ _ _

theorem subnReg (x : Nibble) (y : Nibble) : Statement (.subnReg x y) := fun _ _ => mask_fXY _ _ _ _

theorem shlReg (x : Nibble) (y : Nibble) : Statement (.shlReg x y) := fun _ _ => mask_fXY _ _ _ _

theorem sneReg (x : Nibble) (y : Nibble) : Statement (.sneReg x y) := fun _ _ => mask_fXY _ _ _ _

theorem ldI (nnn : Addr) : Statement (.ldI nnn) := fun _ _ => mask_fNNN _ _

theorem jpOff (nnn : Addr) : Statement (.jpOff nnn) := fun _ _ => mask_fNNN _ _

theorem rnd (x : Nibble) (nn : Byte) : Statement (.rnd x nn) := fun _ _ => mask_fXNN _ _ _

theorem drw (x : Nibble) (y : Nibble) (n : Nibble) : Statement (.drw x y n) := fun _ _ => mask_fXYN _ _ _ _

theorem drw16 (x : Nibble) (y : Nibble) : Statement (.drw16 x y) := fun _ _ => mask_fXY _ _ _ _

theorem skp (x : Nibble) : Statement (.skp x) := fun _ _ => mask_fX _ _ _

theorem sknp (x : Nibble) : Statement (.sknp x) := fun _ _ => mask_fX _ _ _

theorem ldVxDt (x : Nibble) : Statement (.ldVxDt x) := fun _ _ => mask_fX _ _ _

theorem ldVxK (x : Nibble) : Statement (.ldVxK x) := fun _ _ => mask_fX _ _ _

theorem ldDtVx (x : Nibble) : Statement (.ldDtVx x) := fun _ _ => mask_fX _ _ _

theorem ldStVx (x : Nibble) : Statement (.ldStVx x) := fun _ _ => mask_fX _ _ _

theorem addI (x : Nibble) : Statement (.addI x) := fun _ _ => mask_fX _ _ _

theorem ldF (x : Nibble) : Statement (.ldF x) := fun _ _ => mask_fX _ _ _

theorem ldHF (x : Nibble) : Statement (.ldHF x) := fun _ _ => mask_fX _ _ _

theorem ldB (x : Nibble) : Statement (.ldB x) := fun _ _ => mask_fX _ _ _

theorem stRegs (x : Nibble) : Statement (.stRegs x) := fun _ _ => mask_fX _ _ _

theorem ldRegs (x : Nibble) : Statement (.ldRegs x) := fun _ _ => mask_fX _ _ _

theorem saveFlags (x : Nibble) : Statement (.saveFlags x) := fun _ _ => mask_fX _ _ _

theorem loadFlags (x : Nibble) : Statement (.loadFlags x) := fun _ _ => mask_fX _ _ _

end Sys2Proof.Laws.TableRow
end

