-- ==== Sys2Proof/Tests/Slice0.lean ====
section
/-! SUPPORT. The model's own tests: ill-formed terms refused, a written-out word of every constructor, one or two single Steps per instruction with the results of 95_test_vectors.md, and a named witness for the hypotheses of every obligation. -/

namespace Sys2Proof.Tests

open Sys2Proof.Machine

/-! ## Helpers -/

/-- The parameters of 95_test_vectors.md's conventions, with scroll-up at 00BN and three bytes for the open high font. -/
def params : Params := ⟨16, .at050, [0xAA, 0xBB, 0xCC], .bN, .noop, .r64x32, 500⟩

/-- The start state of 95_test_vectors.md. -/
def base : State := State.initial params

/-- The start state with the extension on. -/
def ext : State := base.setQcfg { base.qcfg with extendedInstructionSet := true }

/-- One part of the state a Step of the word `w`, stored at the `PC` of `s`, leaves. -/
def see {α : Type} (w : Nat) (s : State) (f : State → α) : Option α :=
  match step (s.withFetchWord 16 w) with
  | .next t => some (f t)
  | .fault _ => none
  | .refused _ => none

/-- The set pixels, as (column, row). -/
def lit (s : State) : List (Nat × Nat) :=
  s.fb.zipIdx.flatMap fun p => p.1.zipIdx.filterMap fun q => if q.1 then some (q.2, p.2) else none

/-- The start state with some pixels flipped on. -/
def withPixels (s : State) (ps : List (Nat × Nat)) : State := s.setFb (ps.foldl (fun g p => g.flip p.1 p.2) s.fb)

/-- Set registers. -/
def withRegs (s : State) (rs : List (Nibble × Byte)) : State := rs.foldl (fun s r => s.setReg r.1 r.2) s

/-! ## WellFormed: each check refuses an ill-formed term -/

theorem test_wf_sys_cls : Instr.wellFormed .bN (.sys 0x0E0) = false := by decide
theorem test_wf_sys_ret : Instr.wellFormed .bN (.sys 0x0EE) = false := by decide
theorem test_wf_sys_scd : Instr.wellFormed .bN (.sys 0x0C7) = false := by decide
theorem test_wf_sys_scu : Instr.wellFormed .bN (.sys 0x0B3) = false ∧ Instr.wellFormed .dN (.sys 0x0D3) = false := by decide
theorem test_wf_sys_others : [0x0FB, 0x0FC, 0x0FD, 0x0FE, 0x0FF].all (fun nnn => !Instr.wellFormed .bN (.sys nnn)) = true := by decide
theorem test_wf_sys_accepts : Instr.wellFormed .bN (.sys 0x0D3) = true ∧ Instr.wellFormed .absent (.sys 0x0B3) = true := by decide
theorem test_wf_scu_absent : Instr.wellFormed .absent (.scu 0x3) = false := by decide
theorem test_wf_drw_zero : Instr.wellFormed .bN (.drw 0x1 0x2 0x0) = false ∧ Instr.wellFormed .bN (.drw 0x1 0x2 0x1) = true := by decide

/-! ## Decoding: a word of every row, written out from 30_encoding.md R94 to R96 -/

theorem test_decode_family0 :
    decodeWord .bN 0x00E0 = .ok .cls ∧ decodeWord .bN 0x00EE = .ok .ret ∧ decodeWord .bN 0x00C5 = .ok (.scd 0x5) ∧
    decodeWord .bN 0x00B5 = .ok (.scu 0x5) ∧ decodeWord .dN 0x00D5 = .ok (.scu 0x5) ∧ decodeWord .bN 0x00FB = .ok .scr ∧
    decodeWord .bN 0x00FC = .ok .scl ∧ decodeWord .bN 0x00FD = .ok .exit ∧ decodeWord .bN 0x00FE = .ok .low ∧
    decodeWord .bN 0x00FF = .ok .high ∧ decodeWord .bN 0x0ABC = .ok (.sys 0xABC) := by decide

theorem test_decode_flow :
    decodeWord .bN 0x1234 = .ok (.jp 0x234) ∧ decodeWord .bN 0x2345 = .ok (.call 0x345) ∧
    decodeWord .bN 0x3A42 = .ok (.seImm 0xA 0x42) ∧ decodeWord .bN 0x4B42 = .ok (.sneImm 0xB 0x42) ∧
    decodeWord .bN 0x5120 = .ok (.seReg 0x1 0x2) ∧ decodeWord .bN 0x9120 = .ok (.sneReg 0x1 0x2) ∧
    decodeWord .bN 0xB210 = .ok (.jpOff 0x210) := by decide

theorem test_decode_alu :
    decodeWord .bN 0x6A2B = .ok (.ldImm 0xA 0x2B) ∧ decodeWord .bN 0x7020 = .ok (.addImm 0x0 0x20) ∧
    decodeWord .bN 0x8120 = .ok (.ldReg 0x1 0x2) ∧ decodeWord .bN 0x8121 = .ok (.orReg 0x1 0x2) ∧
    decodeWord .bN 0x8122 = .ok (.andReg 0x1 0x2) ∧ decodeWord .bN 0x8123 = .ok (.xorReg 0x1 0x2) ∧
    decodeWord .bN 0x8124 = .ok (.addReg 0x1 0x2) ∧ decodeWord .bN 0x8125 = .ok (.subReg 0x1 0x2) ∧
    decodeWord .bN 0x8126 = .ok (.shrReg 0x1 0x2) ∧ decodeWord .bN 0x8127 = .ok (.subnReg 0x1 0x2) ∧
    decodeWord .bN 0x812E = .ok (.shlReg 0x1 0x2) ∧ decodeWord .bN 0xC30F = .ok (.rnd 0x3 0x0F) := by decide

theorem test_decode_index :
    decodeWord .bN 0xA2F0 = .ok (.ldI 0x2F0) ∧ decodeWord .bN 0xF31E = .ok (.addI 0x3) ∧ decodeWord .bN 0xF529 = .ok (.ldF 0x5) ∧
    decodeWord .bN 0xF130 = .ok (.ldHF 0x1) ∧ decodeWord .bN 0xF433 = .ok (.ldB 0x4) ∧ decodeWord .bN 0xF355 = .ok (.stRegs 0x3) ∧
    decodeWord .bN 0xF165 = .ok (.ldRegs 0x1) ∧ decodeWord .bN 0xF175 = .ok (.saveFlags 0x1) ∧
    decodeWord .bN 0xF385 = .ok (.loadFlags 0x3) := by decide

theorem test_decode_keys_display :
    decodeWord .bN 0xE09E = .ok (.skp 0x0) ∧ decodeWord .bN 0xE0A1 = .ok (.sknp 0x0) ∧ decodeWord .bN 0xF007 = .ok (.ldVxDt 0x0) ∧
    decodeWord .bN 0xF20A = .ok (.ldVxK 0x2) ∧ decodeWord .bN 0xF115 = .ok (.ldDtVx 0x1) ∧ decodeWord .bN 0xF218 = .ok (.ldStVx 0x2) ∧
    decodeWord .bN 0xD015 = .ok (.drw 0x0 0x1 0x5) ∧ decodeWord .bN 0xD120 = .ok (.drw16 0x1 0x2) := by decide

theorem test_decode_unknown :
    decodeWord .bN 0x5121 = .error .unknown5XYN ∧ decodeWord .bN 0x8008 = .error .unknown8XYN ∧
    decodeWord .bN 0x912F = .error .unknown9XYN ∧ decodeWord .bN 0xE000 = .error .unknownEXNN ∧
    decodeWord .bN 0xF0FF = .error .unknownFXNN ∧ decode .bN [0x12] = .error .truncated := by decide

theorem test_decodeTableWord : decodeTableWord 16 0x00E0 = some .cls ∧ decodeTableWord 16 0x00B3 = some (.scu 0x3) ∧
    decodeTableWord 16 0xD015 = some (.drw 0x0 0x1 0x5) ∧ decodeTableWord 16 0x5121 = none := by decide

/-! ## The step (95_test_vectors.md L2.F) -/

theorem test_step_guard_after : see 0x6123 (base.setPc 0xFFD) (fun t => (t.reg 1, t.pc)) = some (0x23, 0x200) := by decide
theorem test_step_wraps : see 0x6123 (base.setPc 0xFFE) (fun t => (t.reg 1, t.pc)) = some (0x23, 0x000) := by decide
theorem test_step_guard_before : see 0x6123 (base.setPc 0xFFF) (fun t => (t.reg 1, t.pc)) = some (0x23, 0x202) := by decide
theorem test_step_odd : see 0x6123 (base.setPc 0x201) (fun t => (t.reg 1, t.pc)) = some (0x23, 0x203) := by decide
theorem test_step_unknown : see 0x5121 base (fun t => (t.pc, t.err)) = some (0x202, 0x04) := by decide
theorem test_first_step_from_reset : step State.reset = .next { State.reset with pc := 0x202 } := rfl

/-! ## Control flow (L2.C) -/

theorem test_sys : see 0x0123 base (fun t => (t.pc, t.err)) = some (0x202, 0x00) := by decide
theorem test_ret_empty : see 0x00EE base (fun t => (t.pc, t.sp, t.err)) = some (0x001, 0, 0x10) := by decide
theorem test_ret : see 0x00EE ((base.setStack 2 ((base.stk.set 0 0x204).set 1 0x30A)).setPc 0x400) (fun t => (t.pc, t.sp)) = some (0x30A, 1) := by decide
theorem test_jp : see 0x1FFF base (fun t => t.pc) = some 0xFFF := by decide
theorem test_call : see 0x2ABC base (fun t => (t.pc, t.sp, t.stk[0]?)) = some (0xABC, 1, some 0x202) := by decide
theorem test_call_full : see 0x2300 (base.setStack 16 base.stk) (fun t => (t.pc, t.sp, t.err)) = some (0x300, 16, 0x08) := by decide
theorem test_jpOff : see 0xBFFF (base.setReg 0 0xFF) (fun t => t.pc) = some 0x0FE := by decide
theorem test_jpOff_vx : see 0xBFFF ((base.setReg 0xF 0x10).setQuirk .jumpUsesVx true) (fun t => t.pc) = some 0x00F := by decide
theorem test_seImm : see 0x3342 (base.setReg 3 0x42) (fun t => t.pc) = some 0x204 := by decide
theorem test_seImm_top : see 0x3000 (base.setPc 0xFFC) (fun t => t.pc) = some 0x000 := by decide
theorem test_sneImm : see 0x4342 (base.setReg 3 0x41) (fun t => t.pc) = some 0x204 := by decide
theorem test_seReg : see 0x5120 (withRegs base [(1, 7), (2, 8)]) (fun t => t.pc) = some 0x202 := by decide
theorem test_sneReg : see 0x9550 base (fun t => t.pc) = some 0x202 := by decide

/-! ## Register file and ALU (L2.A) -/

theorem test_ldImm : see 0x6AFF base (fun t => t.reg 0xA) = some 0xFF := by decide
theorem test_addImm : see 0x7001 (withRegs base [(0, 0xFF), (0xF, 7)]) (fun t => (t.reg 0, t.reg 0xF)) = some (0x00, 0x07) := by decide
theorem test_ldReg : see 0x8010 (base.setReg 1 0x33) (fun t => t.reg 0) = some 0x33 := by decide
theorem test_orReg : see 0x8011 (withRegs base [(0, 0x0F), (1, 0xF0), (0xF, 5)]) (fun t => (t.reg 0, t.reg 0xF)) = some (0xFF, 0) := by decide
theorem test_orReg_vf : see 0x8F11 ((withRegs base [(0xF, 0x0F), (1, 0xF0)]).setQuirk .resetFlagOnBitwiseOp false) (fun t => t.reg 0xF) = some 0xFF := by decide
theorem test_andReg : see 0x8012 ((withRegs base [(0, 0x3C), (1, 0x0F), (0xF, 5)]).setQuirk .resetFlagOnBitwiseOp false) (fun t => (t.reg 0, t.reg 0xF)) = some (0x0C, 5) := by decide
theorem test_xorReg : see 0x8013 (withRegs base [(0, 0xFF), (1, 0x0F)]) (fun t => (t.reg 0, t.reg 0xF)) = some (0xF0, 0) := by decide
theorem test_addReg : see 0x8014 (withRegs base [(0, 0xFF), (1, 0x01)]) (fun t => (t.reg 0, t.reg 0xF)) = some (0x00, 1) := by decide
theorem test_addReg_vf : see 0x8F14 (withRegs base [(0xF, 0xFF), (1, 0x01)]) (fun t => t.reg 0xF) = some 1 := by decide
theorem test_subReg : see 0x8015 (withRegs base [(0, 0x05), (1, 0x0A)]) (fun t => (t.reg 0, t.reg 0xF)) = some (0xFB, 0) := by decide
theorem test_subReg_equal : see 0x8015 (withRegs base [(0, 0x07), (1, 0x07)]) (fun t => (t.reg 0, t.reg 0xF)) = some (0x00, 1) := by decide
theorem test_subnReg : see 0x8017 (withRegs base [(0, 0x0A), (1, 0x05)]) (fun t => (t.reg 0, t.reg 0xF)) = some (0xFB, 0) := by decide
theorem test_shrReg : see 0x8016 (withRegs base [(0, 0xFF), (1, 0x05)]) (fun t => (t.reg 0, t.reg 0xF, t.reg 1)) = some (0x02, 1, 0x05) := by decide
theorem test_shrReg_vx : see 0x8016 ((withRegs base [(0, 0x01), (1, 0xFE)]).setQuirk .shiftUsesVy true) (fun t => (t.reg 0, t.reg 0xF)) = some (0x00, 1) := by decide
theorem test_shlReg : see 0x801E (withRegs base [(0, 0xFF), (1, 0x7F)]) (fun t => (t.reg 0, t.reg 0xF)) = some (0xFE, 0) := by decide
theorem test_shlReg_vx : see 0x801E ((base.setReg 0 0x81).setQuirk .shiftUsesVy true) (fun t => (t.reg 0, t.reg 0xF)) = some (0x02, 1) := by decide
theorem test_rnd_masks_nothing : see 0xC300 (base.setReg 3 0x55) (fun t => t.draws) = some 1 := by decide

/-! ## Index register and memory (L2.M) -/

theorem test_ldI : see 0xA2F0 base (fun t => t.i) = some 0x2F0 := by decide
theorem test_addI : see 0xF01E ((withRegs base [(0, 0x01), (0xF, 9)]).setI 0xFFF) (fun t => (t.i, t.reg 0xF)) = some (0x000, 9) := by decide
theorem test_ldF : see 0xF529 (base.setReg 5 0x1A) (fun t => t.i) = some 0x082 := by decide
theorem test_ldF_reloads : see 0xF029 (base.setFont .hi) (fun t => (t.font, t.i)) = some (.lo, 0x050) := by decide
theorem test_ldHF : see 0xF130 (ext.setReg 1 0x0F) (fun t => (t.font, t.i, t.readByte 0x052, t.readByte 0x053)) = some (.hi, 0x230, 0xCC, 0x00) := by decide +kernel
theorem test_ldHF_off : see 0xF130 (base.setReg 1 0x03) (fun t => (t.pc, t.i, t.font)) = some (0x202, 0x200, .lo) := by decide
theorem test_ldB : see 0xF433 ((base.setReg 4 0xFF).setI 0xFFE) (fun t => (t.readByte 0xFFE, t.readByte 0xFFF, t.readByte 0x000)) = some (2, 5, 5) := by decide
theorem test_stRegs : see 0xF355 ((withRegs base [(0, 0x11), (1, 0x22), (2, 0x33), (3, 0x44)]).setI 0x300) (fun t => (t.readByte 0x300, t.readByte 0x303, t.readByte 0x304, t.i)) = some (0x11, 0x44, 0x00, 0x304) := by decide
theorem test_stRegs_wraps : see 0xFF55 ((withRegs base [(7, 7), (8, 8), (0xF, 15)]).setI 0xFF8) (fun t => (t.readByte 0xFFF, t.readByte 0x000, t.readByte 0x007, t.i)) = some (7, 8, 15, 0x008) := by decide
theorem test_ldRegs : see 0xF165 (((base.writeBytes 0x300 [0xAA, 0xBB]).setI 0x300).setQuirk .blockTransferAdvancesI true) (fun t => (t.reg 0, t.reg 1, t.i)) = some (0xAA, 0xBB, 0x300) := by decide
theorem test_ldRegs_advances : see 0xFF65 ((base.writeBytes 0x30F [0x1F]).setI 0x300) (fun t => (t.reg 0xF, t.i)) = some (0x1F, 0x310) := by decide
theorem test_saveFlags : see 0xF175 ((withRegs ext [(0, 1), (1, 2)]).setFlagStore [9, 9, 9, 9]) (fun t => t.flagStore) = some [1, 2] := by decide
theorem test_loadFlags : see 0xF385 ((withRegs ext [(2, 0x55), (3, 0x55)]).setFlagStore [1, 2]) (fun t => (t.reg 0, t.reg 1, t.reg 2, t.reg 3, t.err)) = some (1, 2, 0, 0, 0) := by decide
theorem test_loadFlags_long : see 0xF185 (ext.setFlagStore [1, 2, 3, 4, 5, 6, 7, 8, 9, 10, 11, 12, 13, 14, 15, 16, 17]) (fun t => (t.reg 0, t.reg 1, t.err)) = some (1, 2, 0x20) := by decide

/-! ## Timers and keys (L2.T) -/

theorem test_ldVxDt : see 0xF007 (base.setDt 0x3C) (fun t => t.reg 0) = some 0x3C := by decide
theorem test_ldDtVx : see 0xF115 (base.setReg 1 0x3C) (fun t => t.dt) = some 0x3C := by decide
theorem test_ldStVx : see 0xF218 (base.setReg 2 0x02) (fun t => (t.st, t.tone)) = some (2, true) := by decide
theorem test_ldStVx_silent : see 0xF218 (base.setSt 5) (fun t => (t.st, t.tone)) = some (0, false) := by decide
theorem test_skp : see 0xE09E ((base.setReg 0 0x15).setKeypad (base.keys.set 5 true) none) (fun t => t.pc) = some 0x204 := by decide
theorem test_sknp : see 0xE0A1 (base.setReg 0 5) (fun t => t.pc) = some 0x204 := by decide
theorem test_ldVxK : see 0xF20A (base.setKeypad base.keys (some 3)) (fun t => (t.reg 2, t.execState, t.pc, t.krel)) = some (3, .running, 0x202, some 3) := by decide
theorem test_ldVxK_waits : see 0xF30A (base.setKeypad (base.keys.set 4 true) none) (fun t => (t.execState, t.pc)) = some (.awaitingKey 3, 0x202) := by decide
theorem test_tick_halted : operate ((base.setExec .halted).setDt 3) .tick = .next ((base.setExec .halted).setDt 2) := rfl

/-! ## Display (L2.D) -/

theorem test_cls : see 0x00E0 (withPixels base [(5, 0)]) lit = some [] := by decide
theorem test_drw : see 0xD015 (base.setI 0x050) (fun t => (lit t, t.reg 0xF)) =
    some ([(0, 0), (1, 0), (2, 0), (3, 0), (0, 1), (3, 1), (0, 2), (3, 2), (0, 3), (3, 3), (0, 4), (1, 4), (2, 4), (3, 4)], 0) := by decide
theorem test_drw_clips : see 0xD012 ((withPixels ((withRegs base [(0, 62), (1, 31)]).setI 0x300) [(62, 31)]).writeBytes 0x300 [0xFF, 0xFF])
    (fun t => (lit t, t.reg 0xF)) = some ([(63, 31)], 1) := by decide
theorem test_drw16 : see 0xD010 ((ext.setI 0x300).writeBytes 0x300 [0x80, 0x01]) (fun t => (lit t, t.reg 0xF)) = some ([(0, 0), (15, 0)], 0) := by decide +kernel
theorem test_drw16_off : see 0xD120 (base.setReg 0xF 1) (fun t => (t.pc, t.reg 0xF, lit t)) = some (0x202, 1, []) := by decide
theorem test_scd : see 0x00C3 (withPixels ext [(5, 0), (7, 30)]) lit = some [(5, 3)] := by decide
theorem test_scd_off : see 0x00C3 (withPixels base [(5, 0)]) (fun t => (lit t, t.pc, t.err)) = some ([(5, 0)], 0x202, 0) := by decide
theorem test_scu : see 0x00B3 (withPixels ext [(5, 3), (6, 2)]) lit = some [(5, 0)] := by decide
theorem test_scu_absent : see 0x00B3 (withPixels { ext with params := { params with scrollUp := .absent } } [(5, 3)]) (fun t => (lit t, t.err)) = some ([(5, 3)], 0) := by decide
theorem test_scr : see 0x00FB (withPixels ext [(60, 0), (1, 2)]) lit = some [(5, 2)] := by decide
theorem test_scl : see 0x00FC (withPixels ext [(3, 0), (4, 0)]) lit = some [(0, 0)] := by decide
theorem test_low : see 0x00FE (withPixels ext [(0, 0)]) (fun t => (t.res, lit t)) = some (.r64x32, []) := by decide
theorem test_high : see 0x00FF (withPixels ext [(0, 0)]) (fun t => (t.res, t.fb == Grid.blank .r128x64)) = some (.r128x64, true) := by decide

/-! ## System and host operations (L2.S) -/

theorem test_exit : see 0x00FD ext (fun t => (t.execState, t.pc)) = some (.halted, 0x202) := by decide
theorem test_exit_off : see 0x00FD base (fun t => (t.execState, t.pc)) = some (.running, 0x202) := by decide
theorem test_load_empty : operate base (.load []) = .next { base with loaded := true } := rfl
theorem test_load : operate base (.load [0xA0, 0x00]) = .next { base with loaded := true, mem := [(0x200, 0xA0)] } := rfl
theorem test_presets : (Quirks.ofPreset .chip8).toByte = 0x08 ∧ (Quirks.ofPreset .schip).toByte = 0x17 ∧
    ((Quirks.ofPreset .chip8).write true .shiftUsesVy).toByte = 0x09 ∧ Quirks.ofByte 0xE9 = (Quirks.ofPreset .chip8).write true .shiftUsesVy := by decide

/-! ## Witnesses: for every obligation with hypotheses, a state and operands that meet them together; a statement with several
clauses has one for each, at a boundary where its range has one -/

theorem params_valid : params.Valid := ⟨by decide, by decide, by decide, by decide⟩

theorem base_inv : base.Inv where
  pc := by decide
  i := by decide
  sp := by decide
  stk := by decide
  returnAddresses := fun a h => by rw [List.eq_of_mem_replicate (show a ∈ List.replicate 16 (0 : Word) from h)]; decide
  fb := Grid.wf_blank
  err := by decide
  mem := by decide
  params := params_valid

theorem ext_inv : ext.Inv := base_inv.setQcfg _

/-- A state with the word 0x5121, an Unknown word, where the next Step fetches. -/
def unknownNext : State := base.withFetchWord 16 0x5121

/-- Two return addresses on the stack, and a full stack. -/
def nested (n : Nat) : State := base.setStack n (base.stk.set (n - 1) 0x30A)

/-- The state after `SetQuirk`. -/
def quirk (f : QuirkField) (b : Bool) : State := base.setQuirk f b

/-- FX0A waits, with and without a released key. -/
def waiting (k : Option Nibble) : State := (base.setKeypad base.keys k).setExec (.awaitingKey 0x3)

theorem witness_DecoderConsumesTwoBytes :
    decodeWord .bN ((0x00 : Byte) ++ (0xE0 : Byte)) = .ok .cls ∧
    decodeWord .bN ((0x51 : Byte) ++ (0x21 : Byte)) = .error .unknown5XYN := by decide

theorem witness_DecodeOfEncodeIsTheInstruction :
    Instr.wellFormed .bN (.sys 0xFFF) = true ∧ Instr.wellFormed .dN (.scu 0xF) = true ∧ Instr.wellFormed .absent (.drw 0xF 0xF 0x1) = true ∧
    Instr.wellFormed .absent (.ldRegs 0xF) = true := by decide

theorem witness_EncodeOfDecodeIsTheWord :
    decodeWord .dN 0x00DF = .ok (.scu 0xF) ∧ decodeWord .bN 0x0000 = .ok (.sys 0x000) ∧ decodeWord .bN 0xFF85 = .ok (.loadFlags 0xF) := by decide

/-- Below the guard, with the second guard, wrapping, and with the first guard. -/
theorem witness_StepRunsTheDecodedInstruction :
    base.execState = .running ∧
    (∀ pab ∈ [((0x200 : Word), 0x200, 0x202), (0xFFC, 0xFFC, 0xFFE), (0xFFD, 0xFFD, 0x200), (0xFFE, 0xFFE, 0x000), (0xFFF, 0x200, 0x202)],
      (pab.2.1 = if 0xFFF ≤ pab.1.toNat then 0x200 else pab.1.toNat) ∧
      (pab.2.2 = if 0xFFF ≤ (pab.2.1 + 2) % 0x1000 then 0x200 else (pab.2.1 + 2) % 0x1000)) ∧
    decodeWord base.params.scrollUp (base.readByte 0x200 ++ base.readByte 0x201) = .ok (.sys 0x000) := by decide

theorem witness_UnknownWordIsASilentNoOp :
    unknownNext.execState = .running ∧ unknownNext.pc.toNat = 0x200 ∧
    decodeWord unknownNext.params.scrollUp (unknownNext.readByte 0x200 ++ unknownNext.readByte 0x201) = .error .unknown5XYN := by decide

/-- An instruction on a canonical memory, and an Unknown word. -/
theorem witness_StepCompletesAndChangesOnlyWhatItsRuleNames :
    (base.execState = .running ∧ decodeWord base.params.scrollUp base.fetchedWord = .ok (.sys 0x000) ∧
      base.mem.wf base.params.fontBase = true) ∧
    unknownNext.execState = .running ∧ decodeWord unknownNext.params.scrollUp unknownNext.fetchedWord = .error .unknown5XYN := by decide

theorem witness_WaitingStepTakesTheReleasedKey :
    ((waiting none).execState = .awaitingKey 0x3 ∧ (waiting none).krel = none) ∧
    ((waiting (some 0xF)).execState = .awaitingKey 0x3 ∧ (waiting (some 0xF)).krel = some 0xF) := by decide

theorem witness_StoredWordIsFetchedByTheNextStep :
    base.Inv ∧ decodeWord base.params.scrollUp (BitVec.ofNat 16 0x6A2B) = .ok (.ldImm 0xA 0x2B) := ⟨base_inv, by decide⟩

/-- For the clauses of `WritesOnly`: registers beside a destination; the bytes on both sides of FX33's block, which wraps at the top of
memory; entries beside the one CALL writes; a form that keeps the resolution. -/
theorem witness_EveryInstructionCompletesWithinItsFrame :
    (writesReg base.qcfg 0x1 (.addReg 0x0 0x1) = false ∧ writesReg base.qcfg 0xE (.ldRegs 0xD) = false) ∧
    ((base.setI 0xFFE).mem.wf (base.setI 0xFFE).params.fontBase = true ∧ storedBlocks (base.setI 0xFFE) (.ldB 0x0) = [(0xFFE, 3)] ∧
      ∀ b ∈ [0xFFD, 0x001], ∀ k, k < 3 → (0xFFE + k) % 0x1000 ≠ b % 0x1000) ∧
    (1 ≠ base.sp ∧ 14 ≠ (nested 15).sp) ∧ (Instr.cls ≠ .low ∧ Instr.cls ≠ .high) := by decide

/-- The bytes a reload of the font may store to, and none when the set is loaded or the extension is off. -/
theorem test_storedBlocks_font :
    storedBlocks (base.setFont .hi) (.ldF 0x0) = [(0, 0x200), (0x050, 80)] ∧ storedBlocks base (.ldF 0x0) = [] ∧
    storedBlocks ext (.ldHF 0x0) = [(0, 0x200), (0x050, 3)] ∧ storedBlocks base (.ldHF 0x0) = [] := by decide

/-- An empty stack, one place left, and a full stack. -/
theorem witness_CallPushesAndJumps :
    (base.sp < base.params.stackCap ∧ base.stk.length = base.params.stackCap) ∧
    ((nested 15).sp < (nested 15).params.stackCap ∧ (nested 15).stk.length = (nested 15).params.stackCap) ∧
    (nested 16).params.stackCap ≤ (nested 16).sp := by decide

/-- One entry, a full stack, and an empty one. -/
theorem witness_RetPopsOrGoesToTheSentinel :
    (0 < (nested 1).sp ∧ (nested 1).stk[(nested 1).sp - 1]? = some 0x30A) ∧
    (0 < (nested 16).sp ∧ (nested 16).stk[(nested 16).sp - 1]? = some 0x30A) ∧ base.sp = 0 := by decide

theorem witness_RetAfterCallRestoresPc : base.Inv ∧ base.sp < base.params.stackCap := ⟨base_inv, by decide⟩

theorem witness_OffsetJumpAddsTheSelectedRegister :
    base.qcfg.jumpUsesVx = false ∧ (quirk .jumpUsesVx true).qcfg.jumpUsesVx = true := by decide

theorem witness_CompareSkipsAddTwo : base.reg 0x0 = 0x00 ∧ (base.setReg 0x0 0xFF).reg 0x0 ≠ base.reg 0x0 := by decide

/-- Key F by 0xFF, held; key 0 by 0x10, not held. -/
theorem witness_KeySkipsTestTheLevelArray :
    ((base.setReg 0x0 0xFF).setKeypad (base.keys.set 15 true) none).keys[
      (((base.setReg 0x0 0xFF).setKeypad (base.keys.set 15 true) none).reg 0x0).toNat % 16]? = some true ∧
    (base.setReg 0x0 0x10).keys[((base.setReg 0x0 0x10).reg 0x0).toNat % 16]? = some false := by decide

theorem witness_BitwiseOpsAndTheirFlagReset (s : State) :
    (∃ i r, i = Instr.orReg 0xF 0x1 ∧ r = s.reg 0xF ||| s.reg 0x1) ∧ (∃ i r, i = Instr.andReg 0xF 0x1 ∧ r = s.reg 0xF &&& s.reg 0x1) ∧
    (∃ i r, i = Instr.xorReg 0xF 0x1 ∧ r = s.reg 0xF ^^^ s.reg 0x1) ∧ base.qcfg.resetFlagOnBitwiseOp = true ∧
    (quirk .resetFlagOnBitwiseOp false).qcfg.resetFlagOnBitwiseOp = false :=
  ⟨⟨_, _, rfl, rfl⟩, ⟨_, _, rfl, rfl⟩, ⟨_, _, rfl, rfl⟩, by decide, by decide⟩

theorem witness_AddSetsTheCarry : (0x0 : Nibble) ≠ 0xF ∧ (0xE : Nibble) ≠ 0xF := by decide

theorem witness_SubtractsSetNoBorrow : (0x0 : Nibble) ≠ 0xF ∧ (0xE : Nibble) ≠ 0xF := by decide

theorem witness_ShiftsMoveOneBitOut :
    (0x81 = (if ((base.setReg 0x1 0x81).qcfg.shiftUsesVy) then (base.setReg 0x1 0x81).reg 0x0 else (base.setReg 0x1 0x81).reg 0x1).toNat) ∧
    (0xFF = (if ((quirk .shiftUsesVy true).setReg 0x0 0xFF).qcfg.shiftUsesVy then ((quirk .shiftUsesVy true).setReg 0x0 0xFF).reg 0x0
      else ((quirk .shiftUsesVy true).setReg 0x0 0xFF).reg 0x1).toNat) := by decide

theorem witness_ResultAndFlagTogetherAreExact :
    (0x0 : Nibble) ≠ 0xF ∧ (0 = (if base.qcfg.shiftUsesVy then base.reg 0x0 else base.reg 0x1).toNat) ∧
    (∃ t, exec (.addReg 0x0 0x1) base = .next t) ∧ (∃ t, exec (.subReg 0x0 0x1) base = .next t) ∧ (∃ t, exec (.subnReg 0x0 0x1) base = .next t) ∧
    (∃ t, exec (.shrReg 0x0 0x1) base = .next t) ∧ (∃ t, exec (.shlReg 0x0 0x1) base = .next t) :=
  ⟨by decide, by decide, ⟨_, rfl⟩, ⟨_, rfl⟩, ⟨_, rfl⟩, ⟨_, rfl⟩, ⟨_, rfl⟩⟩

theorem witness_RndMasksOneFreeByte : ∃ b, Config.rnd base.draws = b := ⟨_, rfl⟩

theorem witness_LoadFontWritesTheRegionAndIsIdempotent : base.Inv := base_inv

/-- The bytes on both sides of each boundary of `LoadFont`'s three clauses: the table at 0x050 to 0x09F, the zeroed rest up to 0x1FF, the program area. -/
theorem witness_LoadFont_boundaries :
    params.fontBase.address = 0x050 ∧ (base.fontTable .lo).length = 80 ∧
    base.readByte 0x04F = 0 ∧ base.readByte 0x050 = 0xF0 ∧ base.readByte 0x09F = 0x80 ∧ base.readByte 0x0A0 = 0 := by decide

theorem witness_LdFPointsAtTheLowGlyph : base.font = .lo ∧ (base.setFont .hi).font = .hi := by decide

theorem witness_LdHFPointsAtTheHighGlyph :
    (ext.qcfg.extendedInstructionSet = true ∧ ext.font = .lo) ∧
    ((ext.setFont .hi).qcfg.extendedInstructionSet = true ∧ (ext.setFont .hi).font = .hi) ∧ base.qcfg.extendedInstructionSet = false := by decide

/-- The three digits wrap past the top of memory. -/
theorem witness_LdBStoresThreeDigits : (base.setI 0xFFE).Inv := base_inv.setI _

theorem witness_StoreRegistersWritesTheBlock :
    base.Inv ∧ base.qcfg.blockTransferAdvancesI = false ∧ (quirk .blockTransferAdvancesI true).Inv ∧
    (quirk .blockTransferAdvancesI true).qcfg.blockTransferAdvancesI = true ∧ (0xF : Nibble).toNat ≤ (0xF : Nibble).toNat :=
  ⟨base_inv, by decide, base_inv.setQcfg _, by decide, by decide⟩

theorem witness_LoadRegistersReadsTheBlock :
    base.qcfg.blockTransferAdvancesI = false ∧ (quirk .blockTransferAdvancesI true).qcfg.blockTransferAdvancesI = true := by decide

/-- The extension on with a store of 16 bytes and of 17, and off. -/
theorem witness_FlagStoreSaveAndLoad :
    ext.qcfg.extendedInstructionSet = true ∧ (ext.setFlagStore (List.replicate 16 1)).qcfg.extendedInstructionSet = true ∧
    ¬16 < (ext.setFlagStore (List.replicate 16 1)).flagStore.length ∧ 16 < (ext.setFlagStore (List.replicate 17 1)).flagStore.length ∧
    base.qcfg.extendedInstructionSet = false := by decide

theorem witness_LoadAfterStoreRestoresRegisters : ext.Inv ∧ ext.qcfg.extendedInstructionSet = true := ⟨ext_inv, by decide⟩

theorem witness_WaitForKeyTakesOrWaits :
    (base.setKeypad base.keys (some 0xF)).krel = some 0xF ∧ (base.setKeypad base.keys (some 0x0)).krel = some 0x0 ∧ base.krel = none := by decide

/-- DRW of one row and of fifteen, and DRW16 with the extension. -/
theorem witness_DrawTogglesTheCoveredPixels :
    base.Inv ∧ (∃ i rows columns bits, i = Instr.drw 0x0 0x1 0xF ∧ rows = (0xF : Nibble).toNat ∧ columns = 8 ∧
      bits = fun row col => (base.readByte (base.i.toNat + row)).getLsbD (7 - col)) ∧
    ext.Inv ∧ (∃ i rows columns bits, i = Instr.drw16 0x0 0x1 ∧ ext.qcfg.extendedInstructionSet = true ∧ rows = 16 ∧ columns = 16 ∧
      bits = fun row col => (ext.readByte (ext.i.toNat + 2 * row) ++ ext.readByte (ext.i.toNat + 2 * row + 1)).getLsbD (15 - col)) :=
  ⟨base_inv, ⟨_, _, _, _, rfl, rfl, rfl, rfl⟩, ext_inv, ⟨_, _, _, _, rfl, by decide, rfl, rfl, rfl⟩⟩

/-- Glyph 0 drawn twice at the origin on the empty grid, and a DRW16 with the extension. -/
theorem witness_DrawingTwiceRestoresTheScreen :
    ((base.setI 0x050).Inv ∧ (∃ rows columns bits covered, rows = (0x5 : Nibble).toNat ∧ columns = 8 ∧
        (bits = fun row col => ((base.setI 0x050).readByte ((base.setI 0x050).i.toNat + row)).getLsbD (7 - col)) ∧
        covered = fun c r => Grid.covered (base.setI 0x050).res bits rows columns ((base.setI 0x050).reg 0x0).toNat
          ((base.setI 0x050).reg 0x1).toNat c r) ∧
      (∃ t u, exec (.drw 0x0 0x1 0x5) (base.setI 0x050) = .next t ∧ t.reg 0x0 = (base.setI 0x050).reg 0x0 ∧
        t.reg 0x1 = (base.setI 0x050).reg 0x1 ∧ exec (.drw 0x0 0x1 0x5) t = .next u) ∧
      (∀ c r, (base.setI 0x050).pixel c r = false)) ∧
    (ext.Inv ∧ ext.qcfg.extendedInstructionSet = true ∧ (∃ rows columns bits covered, rows = 16 ∧ columns = 16 ∧
        (bits = fun row col => (ext.readByte (ext.i.toNat + 2 * row) ++ ext.readByte (ext.i.toNat + 2 * row + 1)).getLsbD (15 - col)) ∧
        covered = fun c r => Grid.covered ext.res bits rows columns (ext.reg 0x0).toNat (ext.reg 0x1).toNat c r) ∧
      (∃ t u, exec (.drw16 0x0 0x1) ext = .next t ∧ t.reg 0x0 = ext.reg 0x0 ∧ t.reg 0x1 = ext.reg 0x1 ∧ exec (.drw16 0x0 0x1) t = .next u) ∧
      (∀ c r, ext.pixel c r = false)) :=
  ⟨⟨base_inv.setI _, ⟨_, _, _, _, rfl, rfl, rfl, rfl⟩, ⟨_, _, rfl, by decide, by decide, rfl⟩, fun c r => Grid.pixel_blank c r⟩,
    ext_inv, by decide, ⟨_, _, _, _, rfl, rfl, rfl, rfl⟩,
    ⟨ext.drawSprite 0x0 0x1 16 true, (ext.drawSprite 0x0 0x1 16 true).drawSprite 0x0 0x1 16 true, rfl, by decide, by decide, rfl⟩,
    fun c r => Grid.pixel_blank c r⟩

theorem witness_Dxy0WithoutTheExtension :
    (base.qcfg.extendedInstructionSet = false ∧ base.params.dxy0Base = .noop) ∧
    (State.initial { params with dxy0Base := .zeroRows }).qcfg.extendedInstructionSet = false ∧
    (State.initial { params with dxy0Base := .zeroRows }).params.dxy0Base = .zeroRows := by decide

/-- The extension on, and the corners of the grid. -/
theorem witness_ScrollsMoveEveryPixel :
    ext.qcfg.extendedInstructionSet = true ∧ (0 < ext.res.width ∧ 0 < ext.res.height) ∧ (63 < ext.res.width ∧ 31 < ext.res.height) := by decide

theorem witness_ModeSwitchesSelectAndClear : ext.qcfg.extendedInstructionSet = true := by decide

theorem witness_ExitHaltsUntilReset :
    ext.qcfg.extendedInstructionSet = true ∧ (base.setExec .halted).execState = .halted ∧
    (Operation.tick ≠ .resetProgram ∧ Operation.tick ≠ .resetAll ∧ ∃ t, operate (base.setExec .halted) .tick = .next t) :=
  ⟨by decide, by decide, by decide, by decide, _, rfl⟩

theorem witness_SysAndDisabledFormsDoNothing :
    base.qcfg.extendedInstructionSet = false ∧ Instr.scd 0xF ∈ [Instr.scd 0xF, .scu 0xF, .scr, .scl, .exit, .low, .high, .ldHF 0xF, .saveFlags 0xF, .loadFlags 0xF] := by decide

theorem witness_StepNeverWritesTheHostsState : ∃ t, step base = .next t := ⟨_, rfl⟩

/-- FX0A with no key released, EXIT with the extension, and a waiting Step with a key. -/
theorem witness_OnlyWaitExitAndReleaseChangeExec :
    (∃ t, step (base.withFetchWord 16 0xF30A) = .next t ∧ t.execState ≠ (base.withFetchWord 16 0xF30A).execState) ∧
    (∃ t, step (ext.withFetchWord 16 0x00FD) = .next t ∧ t.execState ≠ (ext.withFetchWord 16 0x00FD).execState) ∧
    (∃ t, step (waiting (some 0xF)) = .next t ∧ t.execState ≠ (waiting (some 0xF)).execState) :=
  ⟨⟨_, rfl, by decide⟩, ⟨_, rfl, by decide⟩, ⟨_, rfl, by decide⟩⟩

theorem witness_ErrorBitsStayUntilReset :
    Operation.step ≠ .resetProgram ∧ Operation.step ≠ .resetAll ∧ ∃ t, operate unknownNext .step = .next t :=
  ⟨by decide, by decide, _, rfl⟩

theorem witness_StepIgnoresErrorsLoadedMarkAndRate : ∃ t, step unknownNext = .next t := ⟨_, rfl⟩

theorem witness_LoadRejectsWhatIsTooLarge :
    ∃ bytes : List Byte, 3584 < bytes.length ∧ bytes.length = 3585 ∧ reply base (.load bytes) = .programTooLarge := by
  obtain ⟨bytes, h⟩ : ∃ bytes : List Byte, bytes.length = 3585 := ⟨List.replicate 3585 0, List.length_replicate⟩
  exact ⟨bytes, by omega, h, if_neg (by rw [h]; decide)⟩

/-- The longest program and the empty one. -/
theorem witness_LoadPlacesTheProgram :
    base.Inv ∧ (List.replicate 3584 (0 : Byte)).length ≤ 3584 ∧ ([] : List Byte).length ≤ 3584 := ⟨base_inv, Nat.le_of_eq List.length_replicate, Nat.zero_le _⟩

theorem witness_CanonicalMemoriesThatReadAlikeAreEqual :
    Memory.wf .at050 [(0x000, 0x12), (0xFFF, 0xAB)] = true ∧
    ∃ m m', Memory.wf .at050 m = true ∧ Memory.wf .at050 m' = true ∧ (∀ a, a < 0x1000 → Memory.read .at050 m a = Memory.read .at050 m' a) :=
  ⟨by decide, [(0x000, 0x12), (0xFFF, 0xAB)], [(0x000, 0x12), (0xFFF, 0xAB)], by decide, by decide, fun _ _ => rfl⟩

theorem witness_ResetMeetsTheInvariant : params.Valid := params_valid

/-- A Step of an Unknown word from a state whose memory lists bytes. -/
theorem witness_StepKeepsTheInvariant : unknownNext.Inv ∧ ∃ t, step unknownNext = .next t :=
  ⟨(base_inv.writeBytes _ _).setExec _, _, rfl⟩

theorem witness_EveryRunCompletesAndKeepsTheInvariant : unknownNext.Inv := (base_inv.writeBytes _ _).setExec _

/-- The first and the last font byte at either base; the bytes are the table's (log 16). -/
theorem witness_FontAndShapesAreThoseWrittenOut :
    0 < 80 ∧ 79 < 80 ∧
    (State.initial { params with fontBase := .at000 }).readByte 0x000 = 0xF0 ∧
    (State.initial { params with fontBase := .at000 }).readByte 0x04F = 0x80 ∧
    (State.initial { params with fontBase := .at050 }).readByte 0x050 = 0xF0 ∧
    (State.initial { params with fontBase := .at050 }).readByte 0x09F = 0x80 := by decide

end Sys2Proof.Tests
end

section
/-! The state each instruction leaves, and the form every Step takes: what the proofs about Steps cite instead of unfolding `step` and `exec`. -/

namespace Sys2Proof.Machine

/-- The state an instruction leaves (30_encoding.md R103: none stops half way); `exec_eq_effect` ties it to `exec`. -/
def effect (i : Instr) (s : State) : State :=
  match exec i s with
  | .next t => t
  | .fault _ => s
  | .refused _ => s

theorem execLdVxK_of_none (x : Nibble) {s : State} (h : s.krel = none) :
    execLdVxK x s = .next (s.setExec (.awaitingKey x)) := by
  rw [execLdVxK, h]

theorem execLdVxK_of_some (x : Nibble) {s : State} {k : Nibble} (h : s.krel = some k) :
    execLdVxK x s = .next (s.setReg x (k.setWidth 8)) := by
  rw [execLdVxK, h]

theorem effect_of_exec {i : Instr} {s t : State} (h : exec i s = .next t) : effect i s = t := by
  rw [effect, h]

theorem effect_ldVxK_of_none (x : Nibble) {s : State} (h : s.krel = none) :
    effect (.ldVxK x) s = s.setExec (.awaitingKey x) :=
  effect_of_exec (execLdVxK_of_none x h)

theorem effect_ldVxK_of_some (x : Nibble) {s : State} {k : Nibble} (h : s.krel = some k) :
    effect (.ldVxK x) s = s.setReg x (k.setWidth 8) :=
  effect_of_exec (execLdVxK_of_some x h)

/-- Every instruction completes in every state; only FX0A's arm is not already of that form. -/
theorem exec_eq_effect (i : Instr) (s : State) : exec i s = .next (effect i s) := by
  cases i with
  | ldVxK x =>
    cases h : s.krel with
    | none => rw [effect_ldVxK_of_none x h]; exact execLdVxK_of_none x h
    | some k => rw [effect_ldVxK_of_some x h]; exact execLdVxK_of_some x h
  | _ => rfl

namespace State

variable {s : State}

theorem drawBase_of_noop (s : State) (x y : Nibble) (h : s.params.dxy0Base = .noop) : s.drawBase x y = s := by
  rw [drawBase, h]

theorem drawBase_of_zeroRows (s : State) (x y : Nibble) (h : s.params.dxy0Base = .zeroRows) :
    s.drawBase x y = s.drawSprite x y 0 false := by
  rw [drawBase, h]

theorem awaitStep_of_none (x : Nibble) (h : s.krel = none) : s.awaitStep x = s := by
  rw [awaitStep, h]

theorem awaitStep_of_some (x : Nibble) {k : Nibble} (h : s.krel = some k) :
    s.awaitStep x = (s.setReg x (k.setWidth 8)).setExec .running := by
  rw [awaitStep, h]

end State

/-! `Step()` in each dispatcher state (R100, R101), and the inversion of a Step. -/

theorem step_of_halted {s : State} (h : s.execState = .halted) : step s = .next s := by
  rw [step, dispatchStep, h]

theorem step_of_awaitingKey {s : State} {x : Nibble} (h : s.execState = .awaitingKey x) : step s = .next (s.awaitStep x) := by
  rw [step, dispatchStep, h]

theorem step_of_decoded {s : State} {i : Instr} (h : s.execState = .running)
    (hd : decodeWord s.params.scrollUp s.fetchedWord = .ok i) : step s = .next (effect i s.afterFetch) := by
  rw [step, dispatchStep, h, ← exec_eq_effect]
  simp only [runStep, hd]

theorem step_of_unknown {s : State} {r : DecodeReject} (h : s.execState = .running)
    (hd : decodeWord s.params.scrollUp s.fetchedWord = .error r) : step s = .next s.afterFetch.unknownWord := by
  rw [step, dispatchStep, h]
  simp only [runStep, hd]

/-- Everything a Step can do. -/
theorem step_cases {s t : State} (h : step s = .next t) :
    (s.execState = .halted ∧ t = s) ∨
    (∃ x, s.execState = .awaitingKey x ∧ t = s.awaitStep x) ∨
    (∃ i, s.execState = .running ∧ decodeWord s.params.scrollUp s.fetchedWord = .ok i ∧ t = effect i s.afterFetch) ∨
    (∃ r, s.execState = .running ∧ decodeWord s.params.scrollUp s.fetchedWord = .error r ∧ t = s.afterFetch.unknownWord) := by
  cases he : s.execState with
  | halted => exact .inl ⟨rfl, Host.Outcome.next.inj (h.symm.trans (step_of_halted he))⟩
  | awaitingKey x => exact .inr (.inl ⟨x, rfl, Host.Outcome.next.inj (h.symm.trans (step_of_awaitingKey he))⟩)
  | running =>
    cases hd : decodeWord s.params.scrollUp s.fetchedWord with
    | ok i => exact .inr (.inr (.inl ⟨i, rfl, rfl, Host.Outcome.next.inj (h.symm.trans (step_of_decoded he hd))⟩))
    | error r => exact .inr (.inr (.inr ⟨r, rfl, rfl, Host.Outcome.next.inj (h.symm.trans (step_of_unknown he hd))⟩))

end Sys2Proof.Machine
end

section
/-! Every Step keeps the invariant. -/

namespace Sys2Proof.Machine

/-- Each instruction is a composition of operations that keep the invariant. -/
theorem State.Inv.effect {s : State} (h : s.Inv) (i : Instr) : (effect i s).Inv := by
  cases i with
  | cls => exact h.clearScreen
  | ret => exact h.popState.setPc _
  | scd n => exact h.whenExtended (h.setScreen (Grid.wf_scrollDown _))
  | scu n => exact h.whenExtended (h.setScreen (Grid.wf_scrollUp _))
  | scr => exact h.whenExtended (h.setScreen Grid.wf_scrollRight)
  | scl => exact h.whenExtended (h.setScreen Grid.wf_scrollLeft)
  | exit => exact h.whenExtended (h.setExec _)
  | low | high => exact h.whenExtended (h.setMode _)
  | sys _ => exact h
  | jp _ | jpOff _ => exact h.setPc _
  | call nnn => exact (h.push h.pc).setPc _
  | seImm _ _ | sneImm _ _ | seReg _ _ | sneReg _ _ | skp _ | sknp _ => exact h.skipIf _
  | ldImm _ _ | addImm _ _ | ldReg _ _ | ldVxDt _ => exact h.setReg _ _
  | orReg _ _ | andReg _ _ | xorReg _ _ => exact h.setBitwise _ _
  | addReg _ _ | subReg _ _ | shrReg _ _ | subnReg _ _ | shlReg _ _ => exact h.setResult _ _ _
  | ldI _ | addI _ => exact h.setI _
  | rnd _ _ => exact h.countDraw.setReg _ _
  | drw _ _ _ => exact h.drawSprite _ _ _ _
  | drw16 x y =>
    change State.Inv (if _ then _ else _)
    split
    · exact h.drawSprite _ _ _ _
    · exact h.drawBase _ _
  | ldVxK x =>
    cases hk : s.krel with
    | none => rw [effect_ldVxK_of_none x hk]; exact h.setExec _
    | some k => rw [effect_ldVxK_of_some x hk]; exact h.setReg _ _
  | ldDtVx _ => exact h.setDt _
  | ldStVx _ => exact h.setSt _
  | ldF _ => exact (h.needFont _).setI _
  | ldHF _ => exact h.whenExtended ((h.needFont _).setI _)
  | ldB _ => exact h.writeBytes _ _
  | stRegs x => exact (h.writeBytes _ _).advanceI x
  | ldRegs x => exact (h.fillRegs _ _).advanceI x
  | saveFlags _ => exact h.whenExtended (h.setFlagStore _)
  | loadFlags x => exact h.whenExtended (h.loadFlagRegs x)

/-- Settles O58: each case of a Step is a composition of operations that keep the invariant. -/
theorem stepKeepsTheInvariant : Obligations.StepKeepsTheInvariant := by
  intro s t h hstep
  obtain ⟨-, rfl⟩ | ⟨x, -, rfl⟩ | ⟨i, -, -, rfl⟩ | ⟨r, -, -, rfl⟩ := step_cases hstep
  · exact h
  · exact h.awaitStep x
  · exact h.afterFetch.effect i
  · exact h.afterFetch.raiseDiag 2 (by decide) (by decide)

end Sys2Proof.Machine
end

section
/-! The frame of each instruction and of a Step, and what it says of the host's state and of `EXEC`. -/

namespace Sys2Proof.Machine

/-- The frame of two moves, each within its own list. -/
theorem SameBut.comp {l l' m : List Part} {s t u : State} (h : SameBut l s t) (k : SameBut l' t u) (hm : l ++ l' ⊆ m) :
    SameBut m s u :=
  (h.mono fun _ hp => hm (List.mem_append_left _ hp)).trans (k.mono fun _ hp => hm (List.mem_append_right _ hp))

/-- An instruction changes no part but those `writtenParts` lists. -/
theorem effect_frame (i : Instr) (s : State) : SameBut (writtenParts i) s (effect i s) := by
  cases i with
  | cls => exact s.setScreen_frame _ _
  | ret => exact s.popState_frame.comp (State.setPc_frame _ _) (by simp [writtenParts])
  | scd _ | scu _ | scr | scl | low | high => exact s.whenExtended_frame (s.setScreen_frame _ _)
  | exit => exact s.whenExtended_frame (s.setExec_frame _)
  | sys _ => exact SameBut.refl _ s
  | jp _ | jpOff _ => exact s.setPc_frame _
  | call _ => exact (s.push_frame _).comp (State.setPc_frame _ _) (by simp [writtenParts])
  | seImm _ _ | sneImm _ _ | seReg _ _ | sneReg _ _ | skp _ | sknp _ => exact s.skipIf_frame _
  | ldImm _ _ | addImm _ _ | ldReg _ _ | ldVxDt _ => exact s.setReg_frame _ _
  | orReg _ _ | andReg _ _ | xorReg _ _ => exact s.setBitwise_frame _ _
  | addReg _ _ | subReg _ _ | shrReg _ _ | subnReg _ _ | shlReg _ _ => exact s.setResult_frame _ _ _
  | ldI _ | addI _ => exact s.setI_frame _
  | rnd _ _ => exact s.countDraw_frame.comp (State.setReg_frame _ _ _) (by simp [writtenParts])
  | drw _ _ _ => exact s.drawSprite_frame _ _ _ _
  | drw16 x y =>
    change SameBut _ s (if _ then _ else _)
    split
    · exact s.drawSprite_frame _ _ _ _
    · exact s.drawBase_frame _ _
  | ldVxK x =>
    cases hk : s.krel with
    | none => rw [effect_ldVxK_of_none x hk]; exact (s.setExec_frame _).mono (by simp [writtenParts])
    | some k => rw [effect_ldVxK_of_some x hk]; exact (s.setReg_frame _ _).mono (by simp [writtenParts])
  | ldDtVx _ => exact s.setDt_frame _
  | ldStVx _ => exact s.setSt_frame _
  | ldF _ => exact (s.needFont_frame _).comp (State.setI_frame _ _) (by simp [writtenParts])
  | ldHF _ => exact s.whenExtended_frame ((s.needFont_frame _).comp (State.setI_frame _ _) (by simp [writtenParts]))
  | ldB _ => exact s.writeBytes_frame _ _
  | stRegs _ => exact (s.writeBytes_frame _ _).comp (State.advanceI_frame _ _) (by simp [writtenParts])
  | ldRegs _ => exact (s.fillRegs_frame _ _).comp (State.advanceI_frame _ _) (by simp [writtenParts])
  | saveFlags _ => exact s.whenExtended_frame (s.setFlagStore_frame _)
  | loadFlags _ => exact s.whenExtended_frame (s.loadFlagRegs_frame _)

/-- The parts a Step may write: all but the keypad, the quirks, the loaded mark and the parameters. -/
def stepParts : List Part :=
  [.registers, .index, .counter, .stack, .delayTimer, .soundTimer, .screen, .dispatcher, .fontSet, .errors, .flagStore,
    .memory, .draws]

theorem writtenParts_subset_stepParts (i : Instr) : writtenParts i ⊆ stepParts := by
  cases i <;> simp [writtenParts, stepParts]

theorem step_frame {s t : State} (h : step s = .next t) : SameBut stepParts s t := by
  have hfetch : SameBut stepParts s s.afterFetch := s.afterFetch_frame.mono (by simp [stepParts])
  obtain ⟨-, rfl⟩ | ⟨x, -, rfl⟩ | ⟨i, -, -, rfl⟩ | ⟨r, -, -, rfl⟩ := step_cases h
  · exact SameBut.refl _ _
  · exact (s.awaitStep_frame x).mono (by simp [stepParts])
  · exact hfetch.trans ((effect_frame i _).mono fun _ hp => writtenParts_subset_stepParts i hp)
  · exact hfetch.trans ((State.raiseDiag_frame _ 2).mono (by simp [stepParts]))

/-- Settles O47: the four parts are outside the frame of a Step. -/
theorem stepNeverWritesTheHostsState : Obligations.StepNeverWritesTheHostsState := by
  intro s t h
  have hf := step_frame h
  obtain ⟨hkeys, hkrel⟩ := hf .keypad (by decide)
  exact ⟨hkeys, hkrel, hf .quirks (by decide), hf .loadedMark (by decide), hf .parameters (by decide)⟩

theorem dispatcher_mem_writtenParts {i : Instr} (h : .dispatcher ∈ writtenParts i) : i = .exit ∨ ∃ x, i = .ldVxK x := by
  cases i <;> simp_all [writtenParts]

/-- An instruction that changes `EXEC` is EXIT with the extension or FX0A with no key released. -/
theorem effect_execState_cases {i : Instr} {s : State} (h : (effect i s).execState ≠ s.execState) :
    (i = .exit ∧ s.qcfg.extendedInstructionSet = true ∧ (effect i s).execState = .halted) ∨
    (∃ x, i = .ldVxK x ∧ s.krel = none ∧ (effect i s).execState = .awaitingKey x) := by
  have hd : .dispatcher ∈ writtenParts i := not_imp_comm.1 (effect_frame i s .dispatcher) h
  obtain rfl | ⟨x, rfl⟩ := dispatcher_mem_writtenParts hd
  · have he : effect .exit s = s.whenExtended (s.setExec .halted) := rfl
    cases hx : s.qcfg.extendedInstructionSet with
    | true => exact .inl ⟨rfl, rfl, by rw [he, s.whenExtended_on _ hx, State.setExec_execState]⟩
    | false => exact absurd (by rw [he, s.whenExtended_off _ hx]) h
  · cases hk : s.krel with
    | none => exact .inr ⟨x, rfl, rfl, by rw [effect_ldVxK_of_none x hk, State.setExec_execState]⟩
    | some k => exact absurd (by rw [effect_ldVxK_of_some x hk, State.setReg_execState]) h

/-- Settles O48: the two instructions that change `EXEC`, and the key that ends a wait. -/
theorem onlyWaitExitAndReleaseChangeExec : Obligations.OnlyWaitExitAndReleaseChangeExec := by
  intro s t h hne
  obtain ⟨-, rfl⟩ | ⟨x, hw, rfl⟩ | ⟨i, hr, hd, rfl⟩ | ⟨r, -, -, rfl⟩ := step_cases h
  · exact absurd rfl hne
  · cases hk : s.krel with
    | none => exact absurd (by rw [State.awaitStep_of_none x hk]) hne
    | some k => exact .inr (.inr ⟨x, k, hw, rfl, by rw [State.awaitStep_of_some x hk, State.setExec_execState]⟩)
  · obtain ⟨rfl, hx, he⟩ | ⟨x, rfl, hk, he⟩ := effect_execState_cases (s := s.afterFetch) hne
    · exact .inr (.inl ⟨hr, hd, hx, he⟩)
    · exact .inl ⟨x, hr, hd, hk, he⟩
  · exact absurd rfl hne

end Sys2Proof.Machine
end

section
/-! No Step reads `ERR`, `LOADED` or the CPU rate: the functions on states with that property are closed under composition and choice, and
every instruction is one of them. Stickiness of `ERR` follows. -/

namespace Sys2Proof.Machine

/-- The state with another `ERR`, another `LOADED` and another CPU rate. -/
def State.setUnread (s : State) (e : Byte) (b : Bool) (hz : Nat) : State :=
  { s with err := e, loaded := b, params := { s.params with cpuHz := hz } }

/-- `f` ors bits into `ERR` that do not depend on `ERR`, `LOADED` or the CPU rate, and neither does the rest of what it does. -/
def IgnoresUnread (f : State → State) : Prop :=
  ∀ s, ∃ r : Byte, (f s).err = s.err ||| r ∧ ∀ e b hz, f (s.setUnread e b hz) = (f s).setUnread (e ||| r) b hz

namespace IgnoresUnread

variable {f g : State → State}

/-- A function that keeps `ERR` and commutes with a change of the three. -/
theorem of_commutes (he : ∀ s, (f s).err = s.err := by intros; rfl)
    (hc : ∀ s e b hz, f (s.setUnread e b hz) = (f s).setUnread e b hz := by intros; rfl) : IgnoresUnread f := fun s =>
  ⟨0#8, by rw [he, BitVec.or_zero], fun e b hz => by rw [hc, BitVec.or_zero]⟩

theorem id : IgnoresUnread fun s => s := of_commutes

theorem raiseDiag (code : Nat) : IgnoresUnread fun s => s.raiseDiag code := fun _ =>
  ⟨1#8 <<< code, rfl, fun _ _ _ => rfl⟩

/-- One function after another, with an argument computed from the state before both. -/
theorem comp_with {α : Type} {g : α → State → State} {a : State → α} (hg : ∀ x, IgnoresUnread (g x)) (hf : IgnoresUnread f)
    (ha : ∀ s e b hz, a (s.setUnread e b hz) = a s := by intros; rfl) : IgnoresUnread fun s => g (a s) (f s) := by
  intro s
  obtain ⟨r, hr, hrest⟩ := hf s
  obtain ⟨q, hq, hqrest⟩ := hg (a s) (f s)
  refine ⟨r ||| q, ?_, fun e b hz => ?_⟩
  · rw [hq, hr, BitVec.or_assoc]
  · simp only [ha, hrest, hqrest, BitVec.or_assoc]

theorem comp (hg : IgnoresUnread g) (hf : IgnoresUnread f) : IgnoresUnread fun s => g (f s) :=
  comp_with (a := fun _ => ()) (fun _ => hg) hf

/-- A choice by a condition that does not read the three. -/
theorem ite {c : State → Prop} [DecidablePred c] (hf : IgnoresUnread f) (hg : IgnoresUnread g)
    (hc : ∀ s e b hz, c (s.setUnread e b hz) ↔ c s := by intros; rfl) : IgnoresUnread fun s => if c s then f s else g s := by
  intro s
  simp only [hc]
  split
  · exact hf s
  · exact hg s

/-- A case split on a value that does not depend on the three. -/
theorem of_value {α : Type} {v : State → α} (h : ∀ a, ∃ g, IgnoresUnread g ∧ ∀ s, v s = a → f s = g s)
    (hv : ∀ s e b hz, v (s.setUnread e b hz) = v s := by intros; rfl) : IgnoresUnread f := by
  intro s
  obtain ⟨g, hg, hfg⟩ := h (v s)
  obtain ⟨r, hr, hrest⟩ := hg s
  refine ⟨r, ?_, fun e b hz => ?_⟩
  · rw [hfg s rfl, hr]
  · rw [hfg s rfl, hfg _ (hv s e b hz), hrest]

/-! The operations of the model, with fixed arguments. -/

theorem whenExtended (hf : IgnoresUnread f) : IgnoresUnread fun s => s.whenExtended (f s) :=
  ite (c := fun s => s.qcfg.extendedInstructionSet = true) hf id

theorem setPc (n : Nat) : IgnoresUnread fun s => s.setPc n := of_commutes

theorem setReg (x : Nibble) (c : Byte) : IgnoresUnread fun s => s.setReg x c := of_commutes

theorem setExec (m : ExecState) : IgnoresUnread fun s => s.setExec m := of_commutes

theorem setI (n : Nat) : IgnoresUnread fun s => s.setI n := of_commutes

/-- A skip on a condition that does not read the three. -/
theorem skipIf {taken : State → Bool} (ht : ∀ s e b hz, taken (s.setUnread e b hz) = taken s := by intros; rfl) :
    IgnoresUnread fun s => s.skipIf (taken s) :=
  ite (c := fun s => taken s = true) of_commutes id fun s e b hz => by rw [ht s e b hz]

theorem advanceI (x : Nibble) : IgnoresUnread fun s => s.advanceI x :=
  ite (c := fun s => s.qcfg.blockTransferAdvancesI = true) id of_commutes

theorem setBitwise (x : Nibble) (b : Byte) : IgnoresUnread fun s => s.setBitwise x b :=
  ite (c := fun s => s.qcfg.resetFlagOnBitwiseOp = true) of_commutes of_commutes

theorem push (a : Word) : IgnoresUnread fun s => s.push a :=
  ite (c := fun s => s.sp < s.params.stackCap) of_commutes (raiseDiag 3)

theorem popState : IgnoresUnread State.popState :=
  ite (c := fun s => 0 < s.sp) of_commutes (raiseDiag 4)

theorem writeBytes (a : Nat) (bs : List Byte) : IgnoresUnread fun s => s.writeBytes a bs := of_commutes

theorem loadFont (font : FontSet) : IgnoresUnread fun s => s.loadFont font :=
  have htable : IgnoresUnread fun s => (s.writeBytes 0 (List.replicate fontRegionSize 0)).writeBytes
      s.params.fontBase.address (s.fontTable font) :=
    comp_with (g := fun block s => s.writeBytes block.1 block.2) (a := fun s => (s.params.fontBase.address, s.fontTable font))
      (fun _ => writeBytes _ _) (writeBytes _ _) fun _ _ _ _ => by cases font <;> rfl
  comp (g := (State.setFont · font)) of_commutes htable

theorem needFont (font : FontSet) : IgnoresUnread fun s => s.needFont font :=
  ite (c := fun s => s.font = font) id (loadFont font)

theorem drawSprite (x y : Nibble) (rows : Nat) (wide : Bool) : IgnoresUnread fun s => s.drawSprite x y rows wide := of_commutes

theorem drawBase (x y : Nibble) : IgnoresUnread fun s => s.drawBase x y := by
  refine of_value (v := fun s => s.params.dxy0Base) fun d => ?_
  cases d with
  | noop => exact ⟨_, id, fun s h => s.drawBase_of_noop x y h⟩
  | zeroRows => exact ⟨_, drawSprite x y 0 false, fun s h => s.drawBase_of_zeroRows x y h⟩

theorem loadFlagRegs (x : Nibble) : IgnoresUnread fun s => s.loadFlagRegs x :=
  have hfill : IgnoresUnread fun s => s.fillRegs (fun k => s.flagStore.getD k 0) (x.toNat + 1) := of_commutes
  ite (c := fun s => 16 < s.flagStore.length) ((raiseDiag 5).comp hfill) hfill

theorem ldVxK (x : Nibble) : IgnoresUnread (effect (.ldVxK x)) := by
  refine of_value (v := State.krel) fun k => ?_
  cases k with
  | none => exact ⟨_, setExec (.awaitingKey x), fun _ h => effect_ldVxK_of_none x h⟩
  | some k => exact ⟨_, setReg x (k.setWidth 8), fun _ h => effect_ldVxK_of_some x h⟩

theorem awaitStep (x : Nibble) : IgnoresUnread fun s => s.awaitStep x := by
  refine of_value (v := State.krel) fun k => ?_
  cases k with
  | none => exact ⟨_, id, fun _ h => State.awaitStep_of_none x h⟩
  | some k => exact ⟨_, (setExec .running).comp (setReg x (k.setWidth 8)), fun _ h => State.awaitStep_of_some x h⟩

theorem of_effect (i : Instr) : IgnoresUnread (effect i) := by
  cases i with
  | ret => exact comp_with (a := State.popValue) setPc popState
  | scd _ | scu _ | scr | scl | low | high | exit | saveFlags _ => exact whenExtended of_commutes
  | call _ => exact (setPc _).comp (comp_with (a := State.pc) push id)
  | seImm _ _ | sneImm _ _ | seReg _ _ | sneReg _ _ | skp _ | sknp _ => exact skipIf
  | orReg x y => exact comp_with (a := fun s => s.reg x ||| s.reg y) (setBitwise x) id
  | andReg x y => exact comp_with (a := fun s => s.reg x &&& s.reg y) (setBitwise x) id
  | xorReg x y => exact comp_with (a := fun s => s.reg x ^^^ s.reg y) (setBitwise x) id
  | drw _ _ _ => exact drawSprite _ _ _ _
  | drw16 x y => exact ite (c := fun s => s.qcfg.extendedInstructionSet = true) (drawSprite x y 16 true) (drawBase x y)
  | ldVxK x => exact ldVxK x
  | ldF x => exact comp_with (a := (State.glyphAddress · loGlyphStride x)) setI (needFont .lo)
  | ldHF x => exact whenExtended (comp_with (a := (State.glyphAddress · hiGlyphStride x)) setI (needFont .hi))
  | stRegs x | ldRegs x => exact (advanceI x).comp of_commutes
  | loadFlags x => exact whenExtended (loadFlagRegs x)
  | cls | sys _ | jp _ | jpOff _ | ldImm _ _ | addImm _ _ | ldReg _ _ | addReg _ _ | subReg _ _ | shrReg _ _ | subnReg _ _ | shlReg _ _
  | ldI _ | addI _ | rnd _ _ | ldVxDt _ | ldDtVx _ | ldStVx _ | ldB _ => exact of_commutes

theorem afterFetch : IgnoresUnread State.afterFetch := of_commutes

/-- A Step that is such a function, whatever the three are. -/
theorem of_step (hf : IgnoresUnread f) {s : State} (h : ∀ e b hz, step (s.setUnread e b hz) = .next (f (s.setUnread e b hz))) :
    ∃ r : Byte, (f s).err = s.err ||| r ∧ ∀ e b hz, step (s.setUnread e b hz) = .next ((f s).setUnread (e ||| r) b hz) := by
  obtain ⟨r, hr, hrest⟩ := hf s
  exact ⟨r, hr, fun e b hz => by rw [h, hrest]⟩

end IgnoresUnread

/-- Settles O50: each case of a Step ignores the three, and so does the choice of the case. -/
theorem stepIgnoresErrorsLoadedMarkAndRate : Obligations.StepIgnoresErrorsLoadedMarkAndRate := by
  intro s t h
  obtain ⟨he, rfl⟩ | ⟨x, he, rfl⟩ | ⟨i, he, hd, rfl⟩ | ⟨r, he, hd, rfl⟩ := step_cases h
  · exact IgnoresUnread.id.of_step fun _ _ _ => step_of_halted he
  · exact (IgnoresUnread.awaitStep x).of_step fun _ _ _ => step_of_awaitingKey he
  · exact ((IgnoresUnread.of_effect i).comp .afterFetch).of_step fun _ _ _ => step_of_decoded he hd
  · exact ((IgnoresUnread.raiseDiag 2).comp .afterFetch).of_step fun _ _ _ => step_of_unknown he hd

/-! `ERR` is sticky: every operation but a reset keeps it or ors bits into it. -/

theorem State.load_frame (s : State) (bytes : List Byte) : SameBut [.memory, .loadedMark] s (s.load bytes) := by
  rw [State.load]; split
  · exact (s.writeBytes_frame _ _).comp (State.setLoaded_frame _ _) (by simp)
  · exact SameBut.refl _ _

theorem operate_ors_err {s t : State} {op : Operation} (hp : op ≠ .resetProgram) (ha : op ≠ .resetAll)
    (h : operate s op = .next t) : ∃ r : Byte, t.err = s.err ||| r := by
  have of_keeps (he : t.err = s.err) : ∃ r : Byte, t.err = s.err ||| r := ⟨0#8, by rw [he, BitVec.or_zero]⟩
  cases op with
  | step =>
    obtain ⟨r, hr, -⟩ := stepIgnoresErrorsLoadedMarkAndRate s t h
    exact ⟨r, hr⟩
  | load bytes =>
    obtain rfl := Host.Outcome.next.inj h
    exact of_keeps (s.load_frame bytes .errors (by decide))
  | resetProgram => exact absurd rfl hp
  | resetAll => exact absurd rfl ha
  | tick | input _ _ | setPreset _ | setQuirk _ _ | writeFlagStore _ | readFlagStore | readFb | readRes | readTone | readErr
  | readExec | readLoaded =>
    obtain rfl := Host.Outcome.next.inj h
    exact of_keeps rfl

/-- Settles O49: ored bits clear none. -/
theorem errorBitsStayUntilReset : Obligations.ErrorBitsStayUntilReset := by
  intro s t op hp ha h
  obtain ⟨r, hr⟩ := operate_ors_err hp ha h
  rw [hr]
  ext k hk
  simpa only [BitVec.getElem_and, BitVec.getElem_or, Bool.and_eq_left_iff_imp, Bool.or_eq_true] using Or.inl

end Sys2Proof.Machine
end

section
/-! The host operations other than Step, Tick, Load and the resets: what they write, and what the reads reply. -/

namespace Sys2Proof.Machine

/-- The place of a quirk in the register view of `QCFG` (10_state.md R40). -/
def quirkBit : QuirkField → Nat
  | .shiftUsesVy => 0
  | .jumpUsesVx => 1
  | .blockTransferAdvancesI => 2
  | .resetFlagOnBitwiseOp => 3
  | .extendedInstructionSet => 4

/-- The register view, bit by bit; bits 7:5 read 0 (10_state.md R40). -/
theorem toByte_getLsbD (q : Quirks) (k : Nat) : q.toByte.getLsbD k =
    [q.shiftUsesVy, q.jumpUsesVx, q.blockTransferAdvancesI, q.resetFlagOnBitwiseOp, q.extendedInstructionSet].getD k false := by
  by_cases hk : k < 8
  · obtain ⟨a, b, c, d, e⟩ := q
    revert k a b c d e
    decide
  · rw [BitVec.getLsbD_of_ge _ _ (by omega), List.getD_eq_default _ _ (by simp; omega)]

theorem toByte_chip8 : (Quirks.ofPreset .chip8).toByte = 0x08 := by decide

theorem toByte_schip : (Quirks.ofPreset .schip).toByte = 0x17 := by decide

/-- `SetQuirk` writes its own bit of the register view. -/
theorem toByte_write_getLsbD (q : Quirks) (b : Bool) (f : QuirkField) (k : Nat) :
    (q.write b f).toByte.getLsbD k = if k = quirkBit f then b else q.toByte.getLsbD k := by
  rw [toByte_getLsbD, toByte_getLsbD]
  cases f <;> rcases k with _ | _ | _ | _ | _ | k <;> simp [Quirks.write, quirkBit]

theorem reply_readTone (s : State) : reply s .readTone = .tone (decide (s.st ≠ 0)) :=
  congrArg Reply.tone (by rw [Bool.eq_iff_iff, State.tone, bne_iff_ne, decide_eq_true_iff])

/-- A read leaves the state as it was (70_reset_and_hazards.md R300). -/
theorem operate_read (s : State) {read : Operation}
    (h : read ∈ [Operation.readFlagStore, .readFb, .readRes, .readTone, .readErr, .readExec, .readLoaded]) :
    operate s read = .next s := by
  simp only [List.mem_cons, List.not_mem_nil, or_false] at h
  obtain rfl | rfl | rfl | rfl | rfl | rfl | rfl := h <;> rfl

/-- Settles O55: each write is one field's update, and the register view of `QCFG` shows it bit by bit. -/
theorem hostWritesAndReadsAreExact : Obligations.HostWritesAndReadsAreExact := by
  intro s levels released f b bytes
  refine ⟨⟨_, rfl, rfl, rfl, s.setKeypad_frame _ _⟩, ⟨_, rfl, toByte_chip8, s.setQcfg_frame _⟩,
    ⟨_, rfl, toByte_schip, s.setQcfg_frame _⟩,
    ⟨_, rfl, s.setQcfg_frame _, fun k _ => ?_⟩, ⟨_, rfl, rfl, s.setFlagStore_frame _, rfl⟩, rfl, rfl, rfl, reply_readTone s,
    rfl, rfl, rfl, fun read hr => operate_read s hr⟩
  exact (toByte_write_getLsbD s.qcfg b f k).trans (by cases f <;> rfl)

end Sys2Proof.Machine
end

section
/-! Memory in its canonical form is determined by what it reads, so the host operations that write memory are settled byte by byte. -/

namespace Sys2Proof.Machine

namespace Memory

variable {base : FontBase}

theorem read_cons_self (k : Nat) (c : Byte) (m : Memory) : Memory.read base ((k, c) :: m) k = c := if_pos rfl

theorem read_cons_of_ne {k a : Nat} (c : Byte) (m : Memory) (h : k ≠ a) : Memory.read base ((k, c) :: m) a = m.read base a := if_neg h

/-- The first listed byte tells a canonical memory from every one that lists only higher addresses. -/
theorem exists_read_ne_of_wfFrom_succ {lo k : Nat} {c : Byte} {m m' : Memory} (h : wfFrom base lo ((k, c) :: m) = true)
    (h' : wfFrom base (k + 1) m' = true) : ∃ a < memorySize, Memory.read base ((k, c) :: m) a ≠ m'.read base a := by
  obtain ⟨-, hk, hc, -⟩ := wfFrom_cons.1 h
  refine ⟨k, hk, ?_⟩
  rw [read_cons_self, read_of_wfFrom h' (Nat.lt_succ_self k)]
  exact hc

/-- Reading alike passes from two canonical memories with the same head to their tails. -/
theorem read_tail_eq {k : Nat} {c c' : Byte} {m m' : Memory} (h : wfFrom base (k + 1) m = true) (h' : wfFrom base (k + 1) m' = true)
    {a : Nat} (hr : Memory.read base ((k, c) :: m) a = Memory.read base ((k, c') :: m') a) : m.read base a = m'.read base a := by
  by_cases ha : k = a
  · rw [read_of_wfFrom h (by omega), read_of_wfFrom h' (by omega)]
  · rwa [read_cons_of_ne c m ha, read_cons_of_ne c' m' ha] at hr

/-- Canonical memories that read alike are the same list: neither can list an address below the other's first one. -/
theorem eq_of_read_eq {lo : Nat} {m m' : Memory} (h : wfFrom base lo m = true) (h' : wfFrom base lo m' = true)
    (hr : ∀ a < memorySize, m.read base a = m'.read base a) : m = m' := by
  induction m generalizing lo m' with
  | nil =>
    cases m' with
    | nil => rfl
    | cons cell' m' =>
      obtain ⟨a, ha, hne⟩ := exists_read_ne_of_wfFrom_succ (m' := []) h' rfl
      exact absurd (hr a ha).symm hne
  | cons cell m ih =>
    obtain ⟨k, c⟩ := cell
    cases m' with
    | nil =>
      obtain ⟨a, ha, hne⟩ := exists_read_ne_of_wfFrom_succ (m' := []) h rfl
      exact absurd (hr a ha) hne
    | cons cell' m' =>
      obtain ⟨k', c'⟩ := cell'
      obtain ⟨-, hk, hc, hm⟩ := wfFrom_cons.1 h
      obtain ⟨-, hk', hc', hm'⟩ := wfFrom_cons.1 h'
      obtain hlt | rfl | hgt := Nat.lt_trichotomy k k'
      · obtain ⟨a, ha, hne⟩ := exists_read_ne_of_wfFrom_succ h (wfFrom_cons.2 ⟨hlt, hk', hc', hm'⟩)
        exact absurd (hr a ha) hne
      · have hhead : c = c' := by simpa only [read_cons_self] using hr k hk
        rw [hhead, ih hm hm' fun a ha => read_tail_eq hm hm' (hr a ha)]
      · obtain ⟨a, ha, hne⟩ := exists_read_ne_of_wfFrom_succ h' (wfFrom_cons.2 ⟨hgt, hk, hc, hm⟩)
        exact absurd (hr a ha).symm hne

end Memory

/-- Settles O56, the case of the canonical form from address 0 up. -/
theorem canonicalMemoriesThatReadAlikeAreEqual : Obligations.CanonicalMemoriesThatReadAlikeAreEqual :=
  fun _ _ _ h h' hr => Memory.eq_of_read_eq h h' hr

namespace State

variable {s t : State}

/-- States that hold canonical memories over the same font base and read alike hold the same memory. -/
theorem mem_eq_of_readByte_eq (hs : s.mem.wf s.params.fontBase = true) (ht : t.mem.wf t.params.fontBase = true)
    (hp : t.params = s.params) (hr : ∀ a < 0x1000, t.readByte a = s.readByte a) : t.mem = s.mem := by
  rw [hp] at ht
  refine Memory.eq_of_read_eq ht hs fun a ha => ?_
  have h := hr a ha
  rwa [readByte, readByte, hp, Nat.mod_eq_of_lt ha] at h

/-- `LoadFont` writes `MEM` and `FONT` only. -/
theorem loadFont_eq (s : State) (f : FontSet) : s.loadFont f = { s with mem := (s.loadFont f).mem, font := f } := by
  simp only [loadFont, setFont, writeBytes]

/-- `LoadFont` of the set in place changes nothing when it leaves `MEM`. -/
theorem loadFont_eq_self {f : FontSet} (hf : s.font = f) (hm : (s.loadFont f).mem = s.mem) : s.loadFont f = s := by
  rw [loadFont_eq, hm, ← hf]

/-- A second `LoadFont` of the same set leaves every byte: in each of the three ranges it writes what is there or nothing. -/
theorem readByte_loadFont_loadFont (h : s.Inv) (f : FontSet) {a : Nat} (ha : a < 0x1000) :
    ((s.loadFont f).loadFont f).readByte a = (s.loadFont f).readByte a := by
  rw [readByte_loadFont _ (h.loadFont f).mem (h.loadFont f).params f ha, loadFont_params, loadFont_fontTable,
    readByte_loadFont s h.mem h.params f ha]
  split
  · rfl
  · split <;> rfl

theorem loadFont_loadFont (h : s.Inv) (f : FontSet) : (s.loadFont f).loadFont f = s.loadFont f := by
  have hmem : ((s.loadFont f).loadFont f).mem = (s.loadFont f).mem :=
    mem_eq_of_readByte_eq (h.loadFont f).mem ((h.loadFont f).loadFont f).mem (loadFont_params _ f)
      fun _ ha => readByte_loadFont_loadFont h f ha
  exact loadFont_eq_self (setFont_font _ f) hmem

end State

/-- Settles O28: idempotence because the two memories are canonical and read alike. -/
theorem loadFontWritesTheRegionAndIsIdempotent : Obligations.LoadFontWritesTheRegionAndIsIdempotent :=
  fun s f h => ⟨fun _ ha => s.readByte_loadFont h.mem h.params f ha, rfl, s.loadFont_frame f, State.loadFont_loadFont h f⟩

/-! `Load` (20_memory.md R71, R72), in its two cases. -/

theorem State.load_of_fits (s : State) {bytes : List Byte} (h : bytes.length ≤ 3584) :
    s.load bytes = (s.writeBytes 0x200 bytes).setLoaded true := if_pos h

theorem State.load_of_tooLarge (s : State) {bytes : List Byte} (h : 3584 < bytes.length) : s.load bytes = s :=
  if_neg (Nat.not_le_of_lt h)

theorem reply_load_of_fits (s : State) {bytes : List Byte} (h : bytes.length ≤ 3584) : reply s (.load bytes) = .ok := if_pos h

theorem reply_load_of_tooLarge (s : State) {bytes : List Byte} (h : 3584 < bytes.length) :
    reply s (.load bytes) = .programTooLarge := if_neg (Nat.not_le_of_lt h)

/-- Only a `Load` of too many bytes is rejected. -/
theorem exists_load_of_reply_programTooLarge {s : State} {op : Operation} (h : reply s op = .programTooLarge) :
    ∃ bytes, op = .load bytes ∧ 3584 < bytes.length := by
  cases op with
  | load bytes =>
    refine ⟨bytes, rfl, Nat.lt_of_not_le fun hfits => ?_⟩
    rw [reply_load_of_fits s hfits] at h
    cases h
  | _ => cases h

/-- Settles O53: the rejected case of `Load`, and its converse. -/
theorem loadRejectsWhatIsTooLarge : Obligations.LoadRejectsWhatIsTooLarge := by
  refine fun s => ⟨fun bytes h => ?_, fun op h => exists_load_of_reply_programTooLarge h⟩
  have hreply := reply_load_of_tooLarge s h
  exact ⟨hreply, congrArg Reply.causeCode hreply, congrArg Host.Outcome.next (s.load_of_tooLarge h)⟩

/-- Settles O54: the accepted case of `Load`, a block of at most 4096 bytes written from 0x200 up. -/
theorem loadPlacesTheProgram : Obligations.LoadPlacesTheProgram := by
  intro s bytes h hlen
  refine ⟨s.load bytes, rfl, reply_load_of_fits s hlen, ?_, ?_, ?_, s.load_frame bytes⟩ <;> rw [s.load_of_fits hlen]
  · exact fun k hk => State.readByte_writeBytes h.mem 0x200 bytes k (by omega) hk
  · rfl
  · exact State.writeBytes_outside h.mem 0x200 bytes

/-! The contents after reset. -/

/-- `LO_FONT` stands at the font base, followed by zeros. -/
theorem resetByte_address_add (base : FontBase) (k : Nat) : resetByte base (base.address + k) = loFont.getD k 0 := by
  rw [resetByte, if_pos (Nat.le_add_right _ _), Nat.add_sub_cancel_left]

/-- After reset no byte is listed, so memory reads as the reset contents. -/
theorem State.readByte_initial (p : Params) {a : Nat} (ha : a < 0x1000) :
    (State.initial p).readByte a = resetByte p.fontBase a :=
  congrArg (resetByte p.fontBase) (Nat.mod_eq_of_lt ha)

/-- The font after reset, at either base. -/
theorem State.readByte_initial_font (p : Params) {k : Nat} (hk : k < 80) :
    (State.initial p).readByte (p.fontBase.address + k) = loFont.getD k 0 := by
  have hb : p.fontBase.address ≤ 0x50 := by cases p.fontBase <;> decide
  rw [readByte_initial p (by omega), resetByte_address_add]

/-- Settles O60: the constants evaluate to the numbers, and the font after reset is read at each base in turn. -/
theorem fontAndShapesAreThoseWrittenOut : Obligations.FontAndShapesAreThoseWrittenOut := by
  refine ⟨rfl, rfl, rfl, fun p k hk => ⟨?_, ?_⟩, fun g => ⟨Grid.wf_iff, Grid.wf_iff, Grid.wf_iff⟩⟩
  · simpa only [FontBase.address, Nat.zero_add] using State.readByte_initial_font { p with fontBase := .at000 } hk
  · exact State.readByte_initial_font { p with fontBase := .at050 } hk

end Sys2Proof.Machine
end

section
/-! The decoder on bytes, on written-out words, and on the words `encode` gives. -/

namespace Sys2Proof

open Decode

/-! The decoder on bytes is the decoder on the word of the first two. -/

theorem decode_of_ok {su : ScrollUp} {hi lo : Byte} {i : Instr} (rest : List Byte) (h : decodeWord su (hi ++ lo) = .ok i) :
    decode su (hi :: lo :: rest) = .ok (i, rest) := by
  rw [decode, h]

theorem decode_of_error {su : ScrollUp} {hi lo : Byte} {r : DecodeReject} (rest : List Byte)
    (h : decodeWord su (hi ++ lo) = .error r) : decode su (hi :: lo :: rest) = .error r := by
  rw [decode, h]

theorem decode_wordBytes_of_ok {su : ScrollUp} {w : Word} {i : Instr} (rest : List Byte) (h : decodeWord su w = .ok i) :
    decode su (wordBytes w ++ rest) = .ok (i, rest) :=
  decode_of_ok rest (by rw [bytes_append, h])

/-- Settles O2: the two equations of `decode` on two bytes and more. -/
theorem decoderConsumesTwoBytes : Obligations.DecoderConsumesTwoBytes :=
  fun _ _ _ rest => ⟨fun _ h => decode_of_ok rest h, fun _ h => decode_of_error rest h⟩

/-- Settles O1, by evaluation; of the words given for every `P_SCROLL_UP`, only the one of SYS is compared with it. -/
theorem writtenWordsDecode : Obligations.WrittenWordsDecode := by
  refine ⟨rfl, rfl, rfl, rfl, fun su => ⟨rfl, rfl, rfl, ?_, rfl, rfl, rfl, rfl, rfl, rfl, rfl, rfl, rfl, rfl, rfl, rfl, rfl, rfl, rfl,
    rfl, rfl, rfl⟩⟩
  cases su <;> rfl

/-! A word of each format, from the fields a row fixes. -/

section Formats

variable {w : Word} {a : Nibble}

theorem fNNN_eq (h : n1 w = a) : a ++ nnn w = w := h ▸ (eq_fNNN w).symm

theorem fN_eq {b : BitVec 12} (h : high12 w = b) : b ++ n w = w := h ▸ (eq_fN w).symm

theorem fXNN_eq (h : n1 w = a) : a ++ x w ++ nn w = w := h ▸ (eq_fXNN w).symm

theorem fX_eq {b : Byte} (h : n1 w = a) (hb : nn w = b) : a ++ x w ++ b = w := hb ▸ fXNN_eq h

theorem fXYN_eq (h : n1 w = a) : a ++ x w ++ y w ++ n w = w := h ▸ (eq_fXYN w).symm

theorem fXY_eq {d : Nibble} (h : n1 w = a) (hd : n w = d) : a ++ x w ++ y w ++ d = w := hd ▸ fXYN_eq h

end Formats

/-- SYS takes the words that no other row of family 0 matches (30_encoding.md R94), in the order of `family0`. -/
theorem sysFree_iff {su : ScrollUp} {w : Word} (hw : n1 w = 0#4) : Instr.sysFree su (nnn w) = true ↔
    w ≠ 0x00E0 ∧ w ≠ 0x00EE ∧ high12 w ≠ 0x00C ∧ su.pattern ≠ some (high12 w) ∧
      w ≠ 0x00FB ∧ w ≠ 0x00FC ∧ w ≠ 0x00FD ∧ w ≠ 0x00FE ∧ w ≠ 0x00FF := by
  have hword : 0x0#4 ++ nnn w = w := by rw [← hw]; exact (eq_fNNN w).symm
  simp only [Instr.sysFree, hword, Bool.and_eq_true, bne_iff_ne, and_assoc]
  rfl

/-! Decoding what `encode` gives. -/

theorem family0_sys {su : ScrollUp} {nnn : Addr} (h : Instr.sysFree su nnn = true) : family0 su (0x0#4 ++ nnn) = .sys nnn := by
  have hsys := (sysFree_iff (n1_fNNN 0x0#4 nnn)).1 (by rwa [nnn_fNNN])
  obtain ⟨h1, h2, h3, h4, h5, h6, h7, h8, h9⟩ := hsys
  rw [family0, if_neg h1, if_neg h2, if_neg h3, if_neg h4, if_neg h5, if_neg h6, if_neg h7, if_neg h8, if_neg h9, nnn_fNNN]

theorem decodeWord_sys {su : ScrollUp} {nnn : Addr} (h : Instr.sysFree su nnn = true) : decodeWord su (0x0#4 ++ nnn) = .ok (.sys nnn) :=
  (if_pos (n1_fNNN _ _)).trans (congrArg _ (family0_sys h))

theorem decodeWord_scd (su : ScrollUp) (n : Nibble) : decodeWord su (0x00C#12 ++ n) = .ok (.scd n) := by
  revert n
  cases su <;> decide

theorem decodeWord_scu {su : ScrollUp} (n : Nibble) (h : su ≠ .absent) :
    decodeWord su (su.pattern.getD 0x00B ++ n) = .ok (.scu n) := by
  revert n
  cases su with
  | absent => exact absurd rfl h
  | bN | dN => decide

/-- The word of a well-formed instruction decodes to it: the fields of each format read back, and the row's fixed ones select the row. -/
theorem decodeWord_encode {su : ScrollUp} {i : Instr} (h : i.wellFormed su = true) : decodeWord su (encode su i) = .ok i := by
  cases i with
  | cls | ret | scr | scl | exit | low | high => cases su <;> rfl
  | scd n => exact decodeWord_scd su n
  | scu n => exact decodeWord_scu n (by simpa [Instr.wellFormed] using h)
  | sys nnn => exact decodeWord_sys h
  | jp _ | call _ | ldI _ | jpOff _ => simp [encode, decodeWord, n1_fNNN, nnn_fNNN]
  | seImm _ _ | sneImm _ _ | ldImm _ _ | addImm _ _ | rnd _ _ => simp [encode, decodeWord, n1_fXNN, x_fXNN, nn_fXNN]
  | seReg _ _ | sneReg _ _ | drw16 _ _ => simp [encode, decodeWord, n1_fXYN, x_fXYN, y_fXYN, n_fXYN]
  | ldReg _ _ | orReg _ _ | andReg _ _ | xorReg _ _ | addReg _ _ | subReg _ _ | shrReg _ _ | subnReg _ _ | shlReg _ _ =>
    simp [encode, decodeWord, family8, n1_fXYN, x_fXYN, y_fXYN, n_fXYN]
  | drw x y n =>
    have hn : n ≠ 0#4 := by simpa [Instr.wellFormed] using h
    simp [encode, decodeWord, n1_fXYN, x_fXYN, y_fXYN, n_fXYN, hn]
  | skp _ | sknp _ => simp [encode, decodeWord, familyE, n1_fXNN, x_fXNN, nn_fXNN]
  | ldVxDt _ | ldVxK _ | ldDtVx _ | ldStVx _ | addI _ | ldF _ | ldHF _ | ldB _ | stRegs _ | ldRegs _ | saveFlags _ | loadFlags _ =>
    simp [encode, decodeWord, familyF, n1_fXNN, x_fXNN, nn_fXNN]

/-- Settles O3: the two bytes make the word again, which decodes to the instruction. -/
theorem decodeOfEncodeIsTheInstruction : Obligations.DecodeOfEncodeIsTheInstruction :=
  fun _ _ rest h => decode_wordBytes_of_ok rest (decodeWord_encode h)

end Sys2Proof
end

section
/-! A word that decodes is the word of what it decodes to: the decoding tables row by row. -/

namespace Sys2Proof

open Decode

/-- `w` is the word of `i`, which is well formed. -/
def IsWordOf (su : ScrollUp) (w : Word) (i : Instr) : Prop := encode su i = w ∧ i.wellFormed su = true

/-- Whatever the decoding answers, the word is the word of it. -/
def AnswersOwnInstr (su : ScrollUp) (w : Word) (d : Except DecodeReject Instr) : Prop := ∀ i, d = .ok i → IsWordOf su w i

namespace AnswersOwnInstr

variable {su : ScrollUp} {w : Word} {c : Prop} [Decidable c] {d e : Except DecodeReject Instr} {i : Instr}

theorem reject (r : DecodeReject) : AnswersOwnInstr su w (.error r) := fun _ h => nomatch h

theorem ok (h : IsWordOf su w i) : AnswersOwnInstr su w (.ok i) := fun _ hd => Except.ok.inj hd ▸ h

theorem ite (hd : c → AnswersOwnInstr su w d) (he : ¬c → AnswersOwnInstr su w e) : AnswersOwnInstr su w (if c then d else e) :=
  fun i h => (ite_cases h).elim (fun ⟨hc, h⟩ => hd hc i h) fun ⟨hc, h⟩ => he hc i h

/-- One row of the decoding table: the word is the row's, or a later row answers. -/
theorem row (hi : c → encode su i = w) (he : AnswersOwnInstr su w e)
    (hwf : i.wellFormed su = true := by rfl) : AnswersOwnInstr su w (if c then .ok i else e) :=
  ite (fun hc => ok ⟨hi hc, hwf⟩) fun _ => he

end AnswersOwnInstr

variable {su : ScrollUp} {w : Word}

theorem scu_isWordOf (h : su.pattern = some (high12 w)) : IsWordOf su w (.scu (n w)) := by
  refine ⟨?_, ?_⟩
  · rw [encode, h]
    exact fN_eq rfl
  · cases su
    · cases h
    · rfl
    · rfl

theorem family0_isWordOf (h : n1 w = 0x0) : IsWordOf su w (family0 su w) := by
  unfold family0
  split_ifs with h1 h2 h3 h4 h5 h6 h7 h8 h9
  · exact ⟨h1.symm, rfl⟩
  · exact ⟨h2.symm, rfl⟩
  · exact ⟨fN_eq h3, rfl⟩
  · exact scu_isWordOf h4
  · exact ⟨h5.symm, rfl⟩
  · exact ⟨h6.symm, rfl⟩
  · exact ⟨h7.symm, rfl⟩
  · exact ⟨h8.symm, rfl⟩
  · exact ⟨h9.symm, rfl⟩
  · exact ⟨fNNN_eq h, (sysFree_iff h).2 ⟨h1, h2, h3, h4, h5, h6, h7, h8, h9⟩⟩

theorem family8_answersOwnInstr (h : n1 w = 0x8) : AnswersOwnInstr su w (family8 w) :=
  .row (fXY_eq h) <| .row (fXY_eq h) <| .row (fXY_eq h) <| .row (fXY_eq h) <| .row (fXY_eq h) <| .row (fXY_eq h) <|
    .row (fXY_eq h) <| .row (fXY_eq h) <| .row (fXY_eq h) <| .reject _

theorem familyE_answersOwnInstr (h : n1 w = 0xE) : AnswersOwnInstr su w (familyE w) :=
  .row (fX_eq h) <| .row (fX_eq h) <| .reject _

theorem familyF_answersOwnInstr (h : n1 w = 0xF) : AnswersOwnInstr su w (familyF w) :=
  .row (fX_eq h) <| .row (fX_eq h) <| .row (fX_eq h) <| .row (fX_eq h) <| .row (fX_eq h) <| .row (fX_eq h) <|
    .row (fX_eq h) <| .row (fX_eq h) <| .row (fX_eq h) <| .row (fX_eq h) <| .row (fX_eq h) <| .row (fX_eq h) <| .reject _

/-- The primary dispatch (30_encoding.md R93): a row of family `k` has `k` as nibble 1, and fifteen values excluded leave F. -/
theorem decodeWord_answersOwnInstr : AnswersOwnInstr su w (decodeWord su w) := by
  refine .ite (fun h => .ok (family0_isWordOf h)) fun h0 => ?_
  refine .ite (fun h => .ok ⟨fNNN_eq h, rfl⟩) fun h1 => .ite (fun h => .ok ⟨fNNN_eq h, rfl⟩) fun h2 => ?_
  refine .ite (fun h => .ok ⟨fXNN_eq h, rfl⟩) fun h3 => .ite (fun h => .ok ⟨fXNN_eq h, rfl⟩) fun h4 => ?_
  refine .ite (fun h => .row (fXY_eq h) (.reject _)) fun h5 => ?_
  refine .ite (fun h => .ok ⟨fXNN_eq h, rfl⟩) fun h6 => .ite (fun h => .ok ⟨fXNN_eq h, rfl⟩) fun h7 => ?_
  refine .ite family8_answersOwnInstr fun h8 => ?_
  refine .ite (fun h => .row (fXY_eq h) (.reject _)) fun h9 => ?_
  refine .ite (fun h => .ok ⟨fNNN_eq h, rfl⟩) fun hA => .ite (fun h => .ok ⟨fNNN_eq h, rfl⟩) fun hB => ?_
  refine .ite (fun h => .ok ⟨fXNN_eq h, rfl⟩) fun hC => ?_
  refine .ite (fun h => .ite (fun hn => .ok ⟨fXY_eq h hn, rfl⟩) fun hn => .ok ⟨fXYN_eq h, bne_iff_ne.2 hn⟩) fun hD => ?_
  refine .ite familyE_answersOwnInstr fun hE => ?_
  have hF : n1 w = 0xF := by bv_omega
  exact familyF_answersOwnInstr hF

/-- Every row of the opcode table fixes the bits its mask names. -/
theorem encode_and_rowMask (i : Instr) : Laws.TableRow.Statement i := by
  open Laws.TableRow in
  cases i
  exacts [cls, ret, scd _, scu _, scr, scl, exit, low, high, sys _, jp _, call _, seImm _ _, sneImm _ _, seReg _ _, ldImm _ _,
    addImm _ _, ldReg _ _, orReg _ _, andReg _ _, xorReg _ _, addReg _ _, subReg _ _, shrReg _ _, subnReg _ _, shlReg _ _,
    sneReg _ _, ldI _, jpOff _, rnd _ _, drw _ _ _, drw16 _ _, skp _, sknp _, ldVxDt _, ldVxK _, ldDtVx _, ldStVx _, addI _,
    ldF _, ldHF _, ldB _, stRegs _, ldRegs _, saveFlags _, loadFlags _]

/-- Settles O4: the word is the one of the instruction, and `encode` puts the row's bits in place. -/
theorem encodeOfDecodeIsTheWord : Obligations.EncodeOfDecodeIsTheWord := by
  intro su w i h
  obtain ⟨rfl, hwf⟩ := decodeWord_answersOwnInstr i h
  exact ⟨rfl, hwf, encode_and_rowMask i su hwf⟩

end Sys2Proof
end

section
/-! The words that decode to nothing (30_encoding.md R98), by the fields of the word. -/

namespace Sys2Proof

open Decode Machine

/-- The decoding answers no instruction. -/
def Rejected (d : Except DecodeReject Instr) : Prop := ∃ r, d = .error r

@[simp] theorem rejected_error (r : DecodeReject) : Rejected (.error r) := ⟨r, rfl⟩

@[simp] theorem not_rejected_ok (i : Instr) : ¬Rejected (.ok i) := fun ⟨_, h⟩ => nomatch h

@[simp] theorem rejected_ite {c : Prop} [Decidable c] {d e : Except DecodeReject Instr} :
    Rejected (if c then d else e) ↔ (c ∧ Rejected d) ∨ (¬c ∧ Rejected e) := by
  by_cases hc : c <;> simp [hc]

variable {su : ScrollUp} {w : Word}

theorem family8_rejected_iff : Rejected (family8 w) ↔ n w ∈ [0x8, 0x9, 0xA, 0xB, 0xC, 0xD, 0xF] := by
  simp only [family8, rejected_ite, not_rejected_ok, rejected_error, and_false, false_or, and_true]
  generalize n w = k
  revert k
  decide

theorem familyE_rejected_iff : Rejected (familyE w) ↔ nn w ∉ [0x9E, 0xA1] := by
  simp [familyE]

theorem familyF_rejected_iff : Rejected (familyF w) ↔
    nn w ∉ [0x07, 0x0A, 0x15, 0x18, 0x1E, 0x29, 0x30, 0x33, 0x55, 0x65, 0x75, 0x85] := by
  simp [familyF]

/-- Families 5 and 9 reject on N, and families 8, E and F by their own tables: the sixteen values of nibble 1 in turn. -/
theorem decodeWord_rejected_iff : Rejected (decodeWord su w) ↔
    ((n1 w = 0x5 ∨ n1 w = 0x9) ∧ n w ≠ 0) ∨ (n1 w = 0x8 ∧ Rejected (family8 w)) ∨
      (n1 w = 0xE ∧ Rejected (familyE w)) ∨ (n1 w = 0xF ∧ Rejected (familyF w)) := by
  simp only [decodeWord, rejected_ite, not_rejected_ok, rejected_error, and_false, false_or, and_true]
  generalize n1 w = k
  obtain ⟨⟨k, hk⟩⟩ := k
  interval_cases k <;> simp

/-- The list of R98 as a condition on the fields. -/
theorem unknownNumber_iff : unknownNumber w.toNat = true ↔
    ((n1 w = 0x5 ∨ n1 w = 0x9) ∧ n w ≠ 0) ∨
    (n1 w = 0x8 ∧ n w ∈ [0x8, 0x9, 0xA, 0xB, 0xC, 0xD, 0xF]) ∨
    (n1 w = 0xE ∧ nn w ∉ [0x9E, 0xA1]) ∨
    (n1 w = 0xF ∧ nn w ∉ [0x07, 0x0A, 0x15, 0x18, 0x1E, 0x29, 0x30, 0x33, 0x55, 0x65, 0x75, 0x85]) := by
  have h1 : (n1 w).toNat = w.toNat / 4096 := by rw [n1_toNat]; omega
  simp [unknownNumber, ← BitVec.toNat_inj, h1, n_toNat, nn_toNat, or_assoc]

/-- Settles O5: the decoder and the list put the same condition on the fields. -/
theorem unknownWordsAreTheListedOnes : Obligations.UnknownWordsAreTheListedOnes := by
  intro su w
  change Rejected _ ↔ _
  rw [decodeWord_rejected_iff, family8_rejected_iff, familyE_rejected_iff, familyF_rejected_iff, unknownNumber_iff]

end Sys2Proof
end

section
/-! What an instruction leaves as it was within the parts it writes, and the frame of a Step. -/

namespace Sys2Proof.Machine

namespace State

variable (s : State)

/-- What holds on both sides of the extension gate holds after it. -/
theorem whenExtended_of {P : State → Prop} {t : State} (hon : P t) (hoff : P s) : P (s.whenExtended t) := by
  rw [whenExtended]; split
  · exact hon
  · exact hoff

@[simp] theorem push_stk_length (a : Word) : (s.push a).stk.length = s.stk.length := by
  rw [push]; split
  · exact List.length_set
  · rfl

theorem push_stk_getElem?_of_ne (a : Word) {j : Nat} (h : j ≠ s.sp) : (s.push a).stk[j]? = s.stk[j]? := by
  rw [push]; split
  · exact List.getElem?_set_ne h.symm
  · rfl

@[simp] theorem popState_stk : s.popState.stk = s.stk := by
  rw [popState]; split <;> rfl

theorem reg_setBitwise_of_ne {x z : Nibble} (r : Byte) (hx : z ≠ x)
    (hf : s.qcfg.resetFlagOnBitwiseOp = true → z ≠ flagIndex) : (s.setBitwise x r).reg z = s.reg z := by
  rw [setBitwise]; split
  next h => rw [reg_setResult, if_neg (hf h), if_neg hx]
  next => exact s.reg_setReg_ne r hx

theorem reg_drawSprite_of_ne (x y : Nibble) (rows : Nat) (wide : Bool) {z : Nibble} (h : z ≠ flagIndex) :
    (s.drawSprite x y rows wide).reg z = s.reg z := by
  rw [drawSprite, reg_setFlag, if_neg h]; rfl

theorem reg_fillRegs_of_lt (f : Nat → Byte) {x z : Nibble} (h : x.toNat < z.toNat) :
    (s.fillRegs f (x.toNat + 1)).reg z = s.reg z := by
  rw [reg_fillRegs, if_neg (by omega)]

theorem reg_loadFlagRegs_of_lt {x z : Nibble} (h : x.toNat < z.toNat) : (s.loadFlagRegs x).reg z = s.reg z := by
  have hfill := s.reg_fillRegs_of_lt (fun k => s.flagStore.getD k 0) h
  simp only [loadFlagRegs]; split
  · exact hfill
  · exact hfill

end State

/-- DXY0 draws a sprite or does nothing (44_display.md R223, R224). -/
theorem effect_drw16_cases (x y : Nibble) (s : State) :
    effect (.drw16 x y) s = s ∨ ∃ rows wide, effect (.drw16 x y) s = s.drawSprite x y rows wide := by
  cases hx : s.qcfg.extendedInstructionSet with
  | true => exact .inr ⟨16, true, if_pos hx⟩
  | false =>
    have hbase : effect (.drw16 x y) s = s.drawBase x y := if_neg (by simp [hx])
    cases hd : s.params.dxy0Base with
    | noop => exact .inl (hbase.trans (s.drawBase_of_noop x y hd))
    | zeroRows => exact .inr ⟨0, false, hbase.trans (s.drawBase_of_zeroRows x y hd)⟩

/-- An instruction keeps every register that is neither a destination nor VF written as the flag. -/
theorem effect_reg {i : Instr} {s : State} {z : Nibble} (h : writesReg s.qcfg z i = false) : (effect i s).reg z = s.reg z := by
  cases i with
  | ldImm x _ | addImm x _ | ldReg x _ | ldVxDt x => exact s.reg_setReg_ne _ (beq_eq_false_iff_ne.1 h)
  | rnd x _ => exact s.countDraw.reg_setReg_ne _ (beq_eq_false_iff_ne.1 h)
  | ldVxK x =>
    cases hk : s.krel with
    | none => rw [effect_ldVxK_of_none x hk]; rfl
    | some k => rw [effect_ldVxK_of_some x hk]; exact s.reg_setReg_ne _ (beq_eq_false_iff_ne.1 h)
  | orReg x _ | andReg x _ | xorReg x _ =>
    simp only [writesReg, Bool.or_eq_false_iff, beq_eq_false_iff_ne, Bool.and_eq_false_imp] at h
    obtain ⟨hdest, hflag⟩ := h
    exact s.reg_setBitwise_of_ne _ hdest hflag
  | addReg x _ | subReg x _ | shrReg x _ | subnReg x _ | shlReg x _ =>
    simp only [writesReg, Bool.or_eq_false_iff, beq_eq_false_iff_ne] at h
    exact s.setResult_regs x _ _ z (by simpa using h)
  | drw x y n => exact s.reg_drawSprite_of_ne x y _ _ (beq_eq_false_iff_ne.1 h)
  | drw16 x y =>
    obtain he | ⟨rows, wide, he⟩ := effect_drw16_cases x y s <;> rw [he]
    exact s.reg_drawSprite_of_ne x y rows wide (beq_eq_false_iff_ne.1 h)
  | ldRegs x =>
    have hz : x.toNat < z.toNat := by simpa [writesReg] using h
    exact (State.reg_advanceI _ x z).trans (s.reg_fillRegs_of_lt _ hz)
  | loadFlags x =>
    have hz : x.toNat < z.toNat := by simpa [writesReg] using h
    exact s.whenExtended_of (P := fun t => t.reg z = s.reg z) (s.reg_loadFlagRegs_of_lt hz) rfl
  | _ => exact effect_frame _ s .registers (by simp [writtenParts]) z

theorem SameBytesOutside.blocks {a n : Nat} {s t : State} (h : SameBytesOutside a n s t) : SameBytesOutsideBlocks [(a, n)] s t :=
  fun b hb => h b (hb (a, n) (List.mem_singleton_self _))

/-- On a canonical memory an instruction keeps every byte outside the blocks it stores to. -/
theorem effect_bytes (i : Instr) {s : State} (h : s.mem.wf s.params.fontBase = true) :
    SameBytesOutsideBlocks (storedBlocks s i) s (effect i s) := by
  cases i with
  | ldB x => exact (State.writeBytes_outside h s.i.toNat (State.decimalDigits (s.reg x))).blocks
  | stRegs x =>
    have hblock := (State.writeBytes_outside h s.i.toNat (s.regList (x.toNat + 1))).blocks
    rw [s.regList_length (by omega)] at hblock
    exact fun b hb => (State.readByte_advanceI _ x b).trans (hblock b hb)
  | ldF x => exact s.needFont_outside h .lo
  | ldHF x =>
    cases hx : s.qcfg.extendedInstructionSet with
    | true =>
      have he : effect (.ldHF x) s = (s.needFont .hi).setI (s.glyphAddress hiGlyphStride x) := s.whenExtended_on _ hx
      rw [he, storedBlocks, if_pos hx]
      exact s.needFont_outside h .hi
    | false =>
      have he : effect (.ldHF x) s = s := s.whenExtended_off _ hx
      exact fun b _ => by rw [he]
  | _ => exact fun b _ => effect_frame _ s .memory (by simp [writtenParts]) b

/-- Only CALL writes a stack entry, the one at `SP`. -/
theorem effect_entry {i : Instr} {s : State} {j : Nat} (h : (∃ nnn, i = .call nnn) → j ≠ s.sp) :
    (effect i s).stk[j]? = s.stk[j]? := by
  cases i with
  | call nnn => exact s.push_stk_getElem?_of_ne s.pc (h ⟨nnn, rfl⟩)
  | ret => exact congrArg (·[j]?) s.popState_stk
  | _ => exact congrArg (·[j]?) (effect_frame _ s .stack (by simp [writtenParts])).2

theorem effect_stk_length (i : Instr) (s : State) : (effect i s).stk.length = s.stk.length := by
  cases i with
  | call nnn => exact s.push_stk_length s.pc
  | ret => exact congrArg List.length s.popState_stk
  | _ => exact congrArg List.length (effect_frame _ s .stack (by simp [writtenParts])).2

/-- Only LOW and HIGH switch the resolution. -/
theorem effect_res {i : Instr} (s : State) (hlow : i ≠ .low) (hhigh : i ≠ .high) : (effect i s).res = s.res := by
  cases i with
  | low => exact absurd rfl hlow
  | high => exact absurd rfl hhigh
  | scd _ | scu _ | scr | scl => exact s.whenExtended_of (P := fun t => t.res = s.res) rfl rfl
  | drw16 x y => obtain he | ⟨rows, wide, he⟩ := effect_drw16_cases x y s <;> rw [he]; rfl
  | cls | drw _ _ _ => rfl
  | _ => exact (effect_frame _ s .screen (by simp [writtenParts])).1

/-- The frame of an instruction, clause by clause. -/
theorem effect_writesOnly (i : Instr) (s : State) : WritesOnly [] i s (effect i s) where
  parts := effect_frame i s
  registers _ h := effect_reg h
  bytes h := effect_bytes i h
  entries _ h := effect_entry h
  entryCount := effect_stk_length i s
  resolution := effect_res s

/-- Settles O11: `exec` answers the effect, which stays within the frame. -/
theorem everyInstructionCompletesWithinItsFrame : Obligations.EveryInstructionCompletesWithinItsFrame :=
  fun i s => ⟨effect i s, exec_eq_effect i s, effect_writesOnly i s⟩

/-- The fetch moves `PC` only, so the frame holds from the state before it with `PC` added. -/
theorem WritesOnly.of_afterFetch {i : Instr} {s t : State} (h : WritesOnly [] i s.afterFetch t) : WritesOnly [.counter] i s t where
  parts := s.afterFetch_frame.comp h.parts (List.Subset.refl _)
  registers := h.registers
  bytes hm := by
    have hblocks : storedBlocks s.afterFetch i = storedBlocks s i := by cases i <;> rfl
    exact hblocks ▸ h.bytes hm
  entries := h.entries
  entryCount := h.entryCount
  resolution := h.resolution

/-- Settles O8: the fetch and then the instruction, or the diagnostic bit of an Unknown word. -/
theorem stepCompletesAndChangesOnlyWhatItsRuleNames : Obligations.StepCompletesAndChangesOnlyWhatItsRuleNames := by
  intro s hrun
  cases hd : decodeWord s.params.scrollUp s.fetchedWord with
  | ok i =>
    refine ⟨_, step_of_decoded hrun hd, fun j hj => ?_, nofun⟩
    obtain rfl := Except.ok.inj hj
    exact (effect_writesOnly i s.afterFetch).of_afterFetch
  | error r =>
    exact ⟨_, step_of_unknown hrun hd, nofun, fun _ _ => s.afterFetch_frame.comp (State.raiseDiag_frame _ 2) (List.Subset.refl _)⟩

end Sys2Proof.Machine
end

section
/-! The fetch in numbers (30_encoding.md R101, R102): where the two guards stand, and what the model's probe makes it read. -/

namespace Sys2Proof.Machine

theorem guardPc_toNat (pc : Word) : (guardPc pc).toNat = if 0xFFF ≤ pc.toNat then 0x200 else pc.toNat :=
  apply_ite BitVec.toNat _ _ _

theorem guardPc_toAddr (n : Nat) : guardPc (toAddr n) = BitVec.ofNat 16 (if 0xFFF ≤ n % 0x1000 then 0x200 else n % 0x1000) := by
  rw [guardPc, toAddr_toNat, apply_ite (BitVec.ofNat 16)]; rfl

section Fetch

variable {s : State} {a b : Nat} (ha : a = if 0xFFF ≤ s.pc.toNat then 0x200 else s.pc.toNat)
include ha

theorem State.fetchAddress_eq : s.fetchAddress = a := (guardPc_toNat s.pc).trans ha.symm

theorem State.fetchedWord_eq : s.fetchedWord = s.readByte a ++ s.readByte (a + 1) := by
  rw [fetchedWord, readWord, fetchAddress_eq ha]

theorem State.afterFetch_eq (hb : b = if 0xFFF ≤ (a + 2) % 0x1000 then 0x200 else (a + 2) % 0x1000) :
    s.afterFetch = { s with pc := BitVec.ofNat 16 b } := by
  rw [afterFetch, fetchAddress_eq ha, guardPc_toAddr, ← hb]

end Fetch

/-- Settles O6: the two guards are the fetch's. -/
theorem stepRunsTheDecodedInstruction : Obligations.StepRunsTheDecodedInstruction := by
  intro s a b i hrun ha hb hd
  rw [← State.fetchedWord_eq ha] at hd
  rw [step_of_decoded hrun hd, ← exec_eq_effect, State.afterFetch_eq ha hb]

/-- Settles O7: the two guards are the fetch's, and the diagnostic is bit 2. -/
theorem unknownWordIsASilentNoOp : Obligations.UnknownWordIsASilentNoOp := by
  intro s a b r hrun ha hb hd
  rw [← State.fetchedWord_eq ha] at hd
  rw [step_of_unknown hrun hd, State.afterFetch_eq ha hb]
  rfl

/-- Two bytes stored are the word read there. -/
theorem State.readWord_writeBytes_wordBytes {s : State} (h : s.mem.wf s.params.fontBase = true) (a : Nat) (w : Word) :
    (s.writeBytes a (wordBytes w)).readWord a = w := by
  have hlen : (wordBytes w).length = 2 := rfl
  have hhi : (s.writeBytes a (wordBytes w)).readByte a = w.extractLsb' 8 8 := readByte_writeBytes h a _ 0 (by omega) (by omega)
  have hlo : (s.writeBytes a (wordBytes w)).readByte (a + 1) = w.extractLsb' 0 8 := readByte_writeBytes h a _ 1 (by omega) (by omega)
  rw [readWord, hhi, hlo]
  exact bytes_append w

theorem State.fetchedWord_withFetchWord {s : State} (h : s.Inv) (w : Nat) :
    (s.withFetchWord 16 w).fetchedWord = BitVec.ofNat 16 w := by
  have hmod : BitVec.ofNat 16 (w % 2 ^ 16) = BitVec.ofNat 16 w := BitVec.eq_of_toNat_eq (by simp)
  rw [withFetchWord, hmod]
  exact readWord_writeBytes_wordBytes h.mem s.fetchAddress _

/-- Settles O10: the fetch reads the two bytes the probe stored. -/
theorem storedWordIsFetchedByTheNextStep : Obligations.StoredWordIsFetchedByTheNextStep := by
  intro s w i h hd
  rw [← State.fetchedWord_withFetchWord h w] at hd
  rw [exec_eq_effect]
  exact step_of_decoded rfl hd

end Sys2Proof.Machine
end

section
/-! Control flow (40_flow.md): what `PC` and the stack hold after a jump, a CALL, a RET or a skip, and the forms that do nothing. -/

namespace Sys2Proof.Machine

namespace State

variable {s : State}

/-- A 12-bit operand is stored in `PC` as it is. -/
theorem setPc_addr_pc (s : State) (nnn : Addr) : (s.setPc nnn.toNat).pc.toNat = nnn.toNat := toAddr_toNat_of_lt nnn.isLt

theorem offsetReg_of_v0 (nnn : Addr) (h : s.qcfg.jumpUsesVx = false) : s.offsetReg nnn = 0 := if_neg (by simp [h])

theorem offsetReg_of_vx (nnn : Addr) (h : s.qcfg.jumpUsesVx = true) : s.offsetReg nnn = BitVec.ofNat 4 (nnn.toNat / 256) := by
  rw [offsetReg, if_pos h, BitVec.extractLsb', Nat.shiftRight_eq_div_pow]

end State

/-! CALL and RET on each condition of the stack. -/

variable {s : State}

theorem exec_call_of_room (nnn : Addr) (h : s.sp < s.params.stackCap) :
    exec (.call nnn) s = .next ((s.setStack (s.sp + 1) (s.stk.set s.sp s.pc)).setPc nnn.toNat) := by
  rw [← s.push_of_room s.pc h]; rfl

theorem exec_call_of_full (nnn : Addr) (h : s.params.stackCap ≤ s.sp) :
    exec (.call nnn) s = .next ((s.raiseDiag 3).setPc nnn.toNat) := by
  rw [← s.push_of_full s.pc h]; rfl

theorem exec_ret_of_live {a : Word} (h : 0 < s.sp) (ha : s.stk[s.sp - 1]? = some a) :
    exec .ret s = .next ((s.setStack (s.sp - 1) s.stk).setPc (a.toNat % 0x1000)) := by
  have hvalue : s.popValue = a.toNat % 0x1000 := by
    rw [s.popValue_of_live h, List.getD_eq_getElem?_getD, ha, Option.getD_some]
  rw [← s.popState_of_live h, ← hvalue]; rfl

theorem exec_ret_of_empty (h : s.sp = 0) : exec .ret s = .next ((s.raiseDiag 4).setPc 1) := by
  rw [← s.popState_of_empty h, ← s.popValue_of_empty h]; rfl

/-- After a CALL with room, RET leaves the state before the pair but for the return address in the dead slot at `SP`. -/
theorem exec_ret_after_call (nnn : Addr) (hpc : s.pc.toNat < 0x1000) (hslot : s.sp < s.stk.length) :
    exec .ret ((s.setStack (s.sp + 1) (s.stk.set s.sp s.pc)).setPc nnn.toNat) = .next (s.setStack s.sp (s.stk.set s.sp s.pc)) := by
  have htarget : toAddr (s.pc.toNat % 0x1000) = s.pc := by rw [Nat.mod_eq_of_lt hpc, toAddr_of_toNat hpc]
  rw [exec_ret_of_live (a := s.pc) s.sp.succ_pos (List.getElem?_set_self hslot), State.setPc, htarget]
  rfl

/-- An instruction that is a skip on `c` skips exactly when what `c` decides holds. -/
theorem skipsWhen_of_exec {i : Instr} {c : Bool} {taken : Prop} (he : exec i s = .next (s.skipIf c)) (hc : c = true ↔ taken) :
    SkipsWhen i s taken := by
  refine ⟨s.skipIf c, he, fun ht => ?_, fun hn => ?_, s.skipIf_frame c⟩
  · rw [s.skipIf_eq, if_pos (hc.2 ht), State.setPc_pc, toAddr_toNat]
  · rw [s.skipIf_eq, if_neg (mt hc.1 hn)]

/-- Settles O13: the push on a stack with room and on a full one. -/
theorem callPushesAndJumps : Obligations.CallPushesAndJumps := by
  refine fun nnn s => ⟨fun hroom hlen => ?_, fun hfull => ?_⟩
  · have hslot : s.sp < s.stk.length := hlen ▸ hroom
    exact ⟨_, exec_call_of_room nnn hroom, State.setPc_addr_pc _ nnn, rfl, List.getElem?_set_self hslot, List.length_set,
      fun j hj => List.getElem?_set_ne hj.symm, (s.setStack_frame _ _).comp (State.setPc_frame _ _) (by simp)⟩
  · exact ⟨_, exec_call_of_full nnn hfull, State.setPc_addr_pc _ nnn, rfl,
      (s.raiseDiag_frame 3).comp (State.setPc_frame _ _) (by simp)⟩

/-- Settles O14: the pop from a live stack and from an empty one. -/
theorem retPopsOrGoesToTheSentinel : Obligations.RetPopsOrGoesToTheSentinel := by
  refine fun s => ⟨fun a hlive ha => ?_, fun hempty => ?_⟩
  · exact ⟨_, exec_ret_of_live hlive ha, toAddr_toNat_of_lt (Nat.mod_lt _ (by decide)), rfl, rfl,
      (s.setStack_frame _ _).comp (State.setPc_frame _ _) (by simp)⟩
  · exact ⟨_, exec_ret_of_empty hempty, rfl, rfl, (s.raiseDiag_frame 4).comp (State.setPc_frame _ _) (by simp)⟩

/-- Settles O15: the pair writes the dead slot at `SP` only. -/
theorem retAfterCallRestoresPc : Obligations.RetAfterCallRestoresPc := by
  intro nnn s h hroom
  have hslot : s.sp < s.stk.length := h.stk ▸ hroom
  exact ⟨_, _, exec_call_of_room nnn hroom, exec_ret_after_call nnn h.pc hslot, rfl, rfl, List.length_set,
    fun j hj => List.getElem?_set_ne hj.symm, s.setStack_frame _ _⟩

/-- Settles O12: the operand fits in 12 bits. -/
theorem jpSetsPc : Obligations.JpSetsPc :=
  fun nnn s => ⟨s.setPc nnn.toNat, rfl, s.setPc_addr_pc nnn, s.setPc_frame _⟩

/-- Settles O16: the register is selected by the quirk, and `PC` holds the sum modulo 4096. -/
theorem offsetJumpAddsTheSelectedRegister : Obligations.OffsetJumpAddsTheSelectedRegister := by
  refine fun nnn s => ⟨_, rfl, fun hv0 => ?_, fun hvx => ?_, s.setPc_frame _⟩
  · rw [State.setPc_pc, toAddr_toNat, State.offsetReg_of_v0 nnn hv0]
  · rw [State.setPc_pc, toAddr_toNat, State.offsetReg_of_vx nnn hvx]

/-- Settles O17: each form is a skip on the comparison its rule names. -/
theorem compareSkipsAddTwo : Obligations.CompareSkipsAddTwo :=
  fun _ _ _ _ => ⟨skipsWhen_of_exec rfl beq_iff_eq, skipsWhen_of_exec rfl bne_iff_ne,
    skipsWhen_of_exec rfl beq_iff_eq, skipsWhen_of_exec rfl bne_iff_ne⟩

/-- Settles O46: SYS has no effect, and the gate of each extension form is closed. -/
theorem sysAndDisabledFormsDoNothing : Obligations.SysAndDisabledFormsDoNothing := by
  refine fun s => ⟨fun _ => rfl, fun hoff x n i hi => ?_⟩
  have hgate : ∀ t, Host.Outcome.next (s.whenExtended t) = (.next s : Host.Outcome State Fault Refusal) :=
    fun t => congrArg _ (s.whenExtended_off t hoff)
  simp only [List.mem_cons, List.not_mem_nil, or_false] at hi
  obtain rfl | rfl | rfl | rfl | rfl | rfl | rfl | rfl | rfl | rfl := hi <;> exact hgate _

end Sys2Proof.Machine
end

section
/-! The register file and ALU (41_alu.md): result and flag of each form in numbers, and what an instruction that writes a result, or a result
and then VF, answers. -/

namespace Sys2Proof.Machine

/-! Each flag as a number, and the result beside it. -/

theorem carryOut_toNat (a b : Byte) : (carryOut a b).toNat = if a.toNat + b.toNat > 255 then 1 else 0 := Bool.cond_decide ..

theorem noBorrow_toNat (a b : Byte) : (noBorrow a b).toNat = if a.toNat ≥ b.toNat then 1 else 0 := Bool.cond_decide ..

theorem outRight_toNat (v : Byte) : (outRight v).toNat = v.toNat % 2 := by
  rw [outRight, BitVec.getLsbD, Nat.toNat_testBit, pow_zero, Nat.div_one]

theorem outLeft_toNat (v : Byte) : (outLeft v).toNat = v.toNat / 128 := by
  rw [outLeft, BitVec.getLsbD, Nat.toNat_testBit]
  omega

theorem sub_toNat_int (a b : Byte) : ((a - b).toNat : Int) = (a.toNat - b.toNat : Int) % 256 := by
  rw [BitVec.toNat_sub]
  omega

theorem shiftRight_one_toNat (v : Byte) : (v >>> 1).toNat = v.toNat / 2 := by
  rw [BitVec.toNat_ushiftRight, Nat.shiftRight_one]

theorem shiftLeft_one_toNat (v : Byte) : (v <<< 1).toNat = 2 * v.toNat % 256 := by
  rw [BitVec.toNat_shiftLeft, Nat.shiftLeft_eq]
  omega

/-! Flag and result recompose the exact value (R140). -/

theorem carryOut_add_exact (a b : Byte) : 256 * (carryOut a b).toNat + (a + b).toNat = a.toNat + b.toNat := by
  rw [carryOut_toNat, BitVec.toNat_add]
  split <;> omega

theorem noBorrow_sub_exact (a b : Byte) : (a - b).toNat + b.toNat + 256 * (noBorrow a b).toNat = a.toNat + 256 := by
  rw [noBorrow_toNat, BitVec.toNat_sub]
  split <;> omega

theorem outRight_shiftRight_exact (v : Byte) : 2 * (v >>> 1).toNat + (outRight v).toNat = v.toNat := by
  rw [shiftRight_one_toNat, outRight_toNat, Nat.div_add_mod]

theorem outLeft_shiftLeft_exact (v : Byte) : 256 * (outLeft v).toNat + (v <<< 1).toNat = 2 * v.toNat := by
  rw [shiftLeft_one_toNat, outLeft_toNat]
  omega

namespace State

variable (s : State)

/-- A register write leaves every other register. -/
theorem setReg_regs (x : Nibble) (b : Byte) : SameRegsBut [x] s (s.setReg x b) :=
  fun _ hz => s.reg_setReg_ne b (mt List.mem_singleton.2 hz)

theorem setBitwise_of_reset (x : Nibble) (r : Byte) (h : s.qcfg.resetFlagOnBitwiseOp = true) :
    s.setBitwise x r = s.setResult x r false := if_pos h

theorem setBitwise_of_noReset (x : Nibble) (r : Byte) (h : s.qcfg.resetFlagOnBitwiseOp = false) :
    s.setBitwise x r = s.setReg x r := if_neg (by simp [h])

theorem setResult_flag_toNat (x : Nibble) (r : Byte) (f : Bool) : ((s.setResult x r f).reg 0xF).toNat = f.toNat := by
  rw [reg_setResult_flag, flagByte_toNat]

end State

variable {s t : State} {i : Instr} {x : Nibble} {r : Byte} {f : Bool}

/-- An instruction that writes a result with property `P` and then a flag leaves that result in a destination other than VF and the
flag in VF. -/
theorem exists_next_of_exec_setResult (P : Byte → Prop) {n : Nat} (he : exec i s = .next (s.setResult x r f)) (hr : P r) (hf : f.toNat = n) :
    ∃ t, exec i s = .next t ∧ (x ≠ 0xF → P (t.reg x)) ∧ (t.reg 0xF).toNat = n ∧
      SameRegsBut [x, 0xF] s t ∧ SameBut [.registers] s t :=
  ⟨_, he, fun hx => (s.reg_setResult_dest r f hx).symm ▸ hr, (s.setResult_flag_toNat x r f).trans hf,
    s.setResult_regs x r f, s.setResult_frame x r f⟩

/-- What is true of result and flag holds of the destination and VF in the state answered. -/
theorem next_of_exec_setResult (Q : Nat → Nat → Prop) (he : exec i s = .next (s.setResult x r f)) (hx : x ≠ 0xF)
    (hQ : Q r.toNat f.toNat) (ht : exec i s = .next t) : Q (t.reg x).toNat (t.reg 0xF).toNat := by
  obtain rfl := Host.Outcome.next.inj (he.symm.trans ht)
  rwa [s.reg_setResult_dest r f hx, s.setResult_flag_toNat]

/-- Settles O20: the result and then VF when the quirk resets it, the result alone when not. -/
theorem bitwiseOpsAndTheirFlagReset : Obligations.BitwiseOpsAndTheirFlagReset := by
  intro x y s i r hi
  have he : exec i s = .next (s.setBitwise x r) := by
    obtain ⟨rfl, rfl⟩ | ⟨rfl, rfl⟩ | ⟨rfl, rfl⟩ := hi <;> rfl
  refine ⟨_, he, s.setBitwise_frame x r, fun hreset => ?_, fun hkeep => ?_⟩
  · rw [s.setBitwise_of_reset x r hreset]
    exact ⟨s.reg_setResult_flag x r false, s.reg_setResult_dest r false, s.setResult_regs x r false⟩
  · rw [s.setBitwise_of_noReset x r hkeep]
    exact ⟨s.reg_setReg_self x r, s.setReg_regs x r⟩

/-- Settles O22: minuend and subtrahend change places between the two forms. -/
theorem subtractsSetNoBorrow : Obligations.SubtractsSetNoBorrow := fun x y s =>
  ⟨exists_next_of_exec_setResult (fun b => (b.toNat : Int) = _) rfl (sub_toNat_int (s.reg x) (s.reg y)) (noBorrow_toNat _ _),
    exists_next_of_exec_setResult (fun b => (b.toNat : Int) = _) rfl (sub_toNat_int (s.reg y) (s.reg x)) (noBorrow_toNat _ _)⟩

/-- Settles O23: the value shifted is the one `shiftSource` selects. -/
theorem shiftsMoveOneBitOut : Obligations.ShiftsMoveOneBitOut := by
  rintro x y s _ rfl
  exact ⟨exists_next_of_exec_setResult (fun b => b.toNat = _) rfl (shiftRight_one_toNat (s.shiftSource x y)) (outRight_toNat _),
    exists_next_of_exec_setResult (fun b => b.toNat = _) rfl (shiftLeft_one_toNat (s.shiftSource x y)) (outLeft_toNat _)⟩

/-- Settles O24: each form writes a result and a flag that recompose the exact value. -/
theorem resultAndFlagTogetherAreExact : Obligations.ResultAndFlagTogetherAreExact := by
  rintro x y s t _ hx rfl
  exact ⟨next_of_exec_setResult (fun r f => 256 * f + r = _) rfl hx (carryOut_add_exact (s.reg x) (s.reg y)),
    next_of_exec_setResult (fun r f => r + _ + 256 * f = _) rfl hx (noBorrow_sub_exact (s.reg x) (s.reg y)),
    next_of_exec_setResult (fun r f => r + _ + 256 * f = _) rfl hx (noBorrow_sub_exact (s.reg y) (s.reg x)),
    next_of_exec_setResult (fun r f => 2 * r + f = _) rfl hx (outRight_shiftRight_exact (s.shiftSource x y)),
    next_of_exec_setResult (fun r f => 256 * f + r = _) rfl hx (outLeft_shiftLeft_exact (s.shiftSource x y))⟩

/-- Settles O19: each form is one register write. -/
theorem loadsAndImmediateAddWriteVx : Obligations.LoadsAndImmediateAddWriteVx := by
  intro x y nn s
  have hsum : ((s.setReg x (s.reg x + nn)).reg x).toNat = ((s.reg x).toNat + nn.toNat) % 256 := by
    rw [s.reg_setReg_self, BitVec.toNat_add]
  exact ⟨⟨_, rfl, s.reg_setReg_self x nn, s.setReg_regs x _, s.setReg_frame x _⟩,
    ⟨_, rfl, hsum, s.setReg_regs x _, s.setReg_frame x _⟩,
    ⟨_, rfl, s.reg_setReg_self x _, s.setReg_regs x _, s.setReg_frame x _⟩⟩

/-- Settles O21: the byte sum and the carry. -/
theorem addSetsTheCarry : Obligations.AddSetsTheCarry := fun x y s =>
  exists_next_of_exec_setResult (fun b => b.toNat = _) rfl (BitVec.toNat_add (s.reg x) (s.reg y)) (carryOut_toNat _ _)

/-- Settles O25: the byte drawn is masked, and the write follows the draw. -/
theorem rndMasksOneFreeByte : Obligations.RndMasksOneFreeByte := by
  intro x nn s
  have hdest : (s.countDraw.setReg x (s.rndByte &&& nn)).reg x = s.rndByte &&& nn := State.reg_setReg_self _ x _
  refine ⟨_, rfl, ?_, ?_, rfl, s.countDraw.setReg_regs x _, s.countDraw_frame.comp (State.setReg_frame _ x _) (by simp)⟩
  · rintro _ rfl
    exact hdest
  · rw [hdest, BitVec.and_assoc, BitVec.and_not_self]
    exact BitVec.and_zero

end Sys2Proof.Machine
end

section
/-! Index register and memory transfer (42_index_memory.md): what `I` holds after an advance or a glyph load, the bytes a block store leaves,
and the registers a block load leaves. -/

theorem Sys2Proof.FontBase.address_le (b : FontBase) : b.address ≤ 0x50 := by cases b <;> decide

namespace Sys2Proof.Machine

/-- What changes only bytes outside one listed block changes only bytes outside that block. -/
theorem SameBytesOutsideBlocks.of_singleton {a n : Nat} {s t : State} (h : SameBytesOutsideBlocks [(a, n)] s t) :
    SameBytesOutside a n s t :=
  fun b hb => h b fun _ hp => List.mem_singleton.1 hp ▸ hb

namespace State

variable (s : State)

/-! Glyphs. -/

theorem glyphAddress_eq (stride : Nat) (x : Nibble) :
    s.glyphAddress stride x = s.params.fontBase.address + (s.reg x).toNat % 16 * stride := by
  rw [glyphAddress, lowNibble, BitVec.toNat_setWidth]

/-- No glyph address reaches 4096, so `I` holds it unreduced. -/
theorem glyphAddress_lt {stride : Nat} (h : stride ≤ 32) (x : Nibble) : s.glyphAddress stride x < 0x1000 := by
  have hbase := s.params.fontBase.address_le
  have hdigit : (s.reg x).toNat % 16 ≤ 15 := by omega
  have hoffset := Nat.mul_le_mul hdigit h
  rw [glyphAddress_eq]
  omega

@[simp] theorem needFont_font (f : FontSet) : (s.needFont f).font = f := by
  rw [needFont]; split
  next h => exact h
  next => exact setFont_font _ f

/-! The advance of `I` on each value of the quirk (90_conflicts.md C2). -/

theorem advanceI_i_of_advances (x : Nibble) (h : s.qcfg.blockTransferAdvancesI = false) :
    (s.advanceI x).i.toNat = (s.i.toNat + x.toNat + 1) % 0x1000 := by
  rw [advanceI_eq, if_neg (by simp [h]), setI_i, toAddr_toNat]

theorem advanceI_i_of_keeps (x : Nibble) (h : s.qcfg.blockTransferAdvancesI = true) : (s.advanceI x).i = s.i := by
  rw [advanceI_eq, if_pos h]

/-! V0 to VX as a block. -/

theorem regList_getElem? {n : Nat} (y : Nibble) (h : y.toNat < n) : (s.regList n)[y.toNat]? = some (s.reg y) := by
  rw [regList, List.getElem?_take_of_lt h, Vector.getElem?_toList, Vector.getElem?_eq_getElem y.isLt, reg]

theorem reg_fillRegs_upTo (f : Nat → Byte) (x y : Nibble) :
    (s.fillRegs f (x.toNat + 1)).reg y = if y.toNat ≤ x.toNat then f y.toNat else s.reg y := by
  simp only [reg_fillRegs, Nat.lt_add_one_iff]

variable {s} in
theorem readByte_writeBytes_regList (h : s.mem.wf s.params.fontBase = true) (a : Nat) {x y : Nibble} (hy : y.toNat ≤ x.toNat) :
    (s.writeBytes a (s.regList (x.toNat + 1))).readByte (a + y.toNat) = s.reg y := by
  have hlen : (s.regList (x.toNat + 1)).length = x.toNat + 1 := s.regList_length (by omega)
  rw [readByte_writeBytes h a _ y.toNat (by omega) (by omega), s.regList_getD y (by omega)]

theorem reg_loadFlagRegs (x y : Nibble) :
    (s.loadFlagRegs x).reg y = if y.toNat ≤ x.toNat then s.flagStore.getD y.toNat 0 else s.reg y := by
  rw [← s.reg_fillRegs_upTo (fun k => s.flagStore.getD k 0)]
  simp only [loadFlagRegs]; split <;> rfl

theorem loadFlagRegs_err (x : Nibble) :
    (s.loadFlagRegs x).err = if 16 < s.flagStore.length then s.err ||| 0x20 else s.err :=
  apply_ite State.err _ _ _

/-! The three digits (R174). -/

theorem decimalDigits_toNat (v : Byte) :
    (decimalDigits v).map BitVec.toNat = [v.toNat / 100, v.toNat / 10 % 10, v.toNat % 10] := by
  have hv := v.isLt
  simp only [decimalDigits, List.map_cons, List.map_nil, BitVec.toNat_ofNat, List.cons.injEq, and_true]
  omega

variable {s} in
theorem readByte_writeBytes_decimalDigits_toNat (h : s.mem.wf s.params.fontBase = true) (a : Nat) (v : Byte) {k : Nat} (hk : k < 3) :
    ((s.writeBytes a (decimalDigits v)).readByte (a + k)).toNat = [v.toNat / 100, v.toNat / 10 % 10, v.toNat % 10].getD k 0 := by
  have hlen : (decimalDigits v).length = 3 := rfl
  rw [readByte_writeBytes h a _ k (by omega) (by omega), ← decimalDigits_toNat]
  exact (List.getD_map _ _ BitVec.toNat).symm

end State

variable {s : State} {i : Instr} {x : Nibble}

/-! What an extension form answers on each side of its gate (45_system.md R251). -/

theorem next_whenExtended_on (t : State) (h : s.qcfg.extendedInstructionSet = true) :
    (.next (s.whenExtended t) : Host.Outcome State Fault Refusal) = .next t := congrArg _ (s.whenExtended_on t h)

theorem next_whenExtended_off (t : State) (h : s.qcfg.extendedInstructionSet = false) :
    (.next (s.whenExtended t) : Host.Outcome State Fault Refusal) = .next s := congrArg _ (s.whenExtended_off t h)

/-- An instruction that needs font `f` and points `I` at a glyph of it loads the font only when the other set `g` is in place. -/
theorem exists_next_of_exec_glyph {f g : FontSet} {stride : Nat} (hfg : g ≠ f) (hstride : stride ≤ 32)
    (he : exec i s = .next ((s.needFont f).setI (s.glyphAddress stride x))) :
    ∃ t, exec i s = .next t ∧ t.i.toNat = s.params.fontBase.address + (s.reg x).toNat % 16 * stride ∧ t.font = f ∧
      (s.font = f → SameBut [.index] s t) ∧
      (s.font = g → SameBut [.index, .memory, .fontSet] s t ∧ ∀ a, t.readByte a = (s.loadFont f).readByte a) := by
  refine ⟨_, he, ?_, s.needFont_font f, fun hsame => ?_, fun hother => ⟨?_, fun a => ?_⟩⟩
  · rw [State.setI_i, toAddr_toNat_of_lt (s.glyphAddress_lt hstride x), s.glyphAddress_eq]
  · rw [s.needFont_same f hsame]
    exact s.setI_frame _
  · exact (s.needFont_frame f).comp (State.setI_frame _ _) (by simp)
  · rw [State.setI_readByte, s.needFont_other f (hother ▸ hfg)]

/-- Settles O29: the low font, at its stride. -/
theorem ldFPointsAtTheLowGlyph : Obligations.LdFPointsAtTheLowGlyph :=
  fun _ _ => exists_next_of_exec_glyph (by decide) (by decide) rfl

/-- Settles O30: the high font, at its stride, behind the extension gate. -/
theorem ldHFPointsAtTheHighGlyph : Obligations.LdHFPointsAtTheHighGlyph := fun _ _ =>
  ⟨fun hon => exists_next_of_exec_glyph (by decide) (by decide) (next_whenExtended_on _ hon), next_whenExtended_off _⟩

/-- Settles O32: the block is the register list, and the advance writes `I` only. -/
theorem storeRegistersWritesTheBlock : Obligations.StoreRegistersWritesTheBlock := by
  refine fun x s h => ⟨_, rfl, fun y hy => ?_, (effect_bytes (.stRegs x) h.mem).of_singleton,
    (s.writeBytes _ _).advanceI_i_of_advances x, (s.writeBytes _ _).advanceI_i_of_keeps x, effect_frame (.stRegs x) s⟩
  rw [State.readByte_advanceI, State.readByte_writeBytes_regList h.mem _ hy]

/-- Settles O33: the fill leaves `I`, so the advance is from its old value. -/
theorem loadRegistersReadsTheBlock : Obligations.LoadRegistersReadsTheBlock := by
  refine fun x s => ⟨_, rfl, fun y => ?_, (s.fillRegs _ _).advanceI_i_of_advances x, (s.fillRegs _ _).advanceI_i_of_keeps x,
    effect_frame (.ldRegs x) s⟩
  rw [State.reg_advanceI, State.reg_fillRegs_upTo]

/-- Settles O34: the two forms on each side of the extension gate. -/
theorem flagStoreSaveAndLoad : Obligations.FlagStoreSaveAndLoad := by
  refine fun x s => ⟨fun hon => ⟨⟨_, next_whenExtended_on _ hon, ?_, fun y hy => ?_, s.setFlagStore_frame _⟩,
    ⟨_, next_whenExtended_on _ hon, s.reg_loadFlagRegs x, s.loadFlagRegs_err x, s.loadFlagRegs_frame x⟩⟩,
    fun hoff => ⟨next_whenExtended_off _ hoff, next_whenExtended_off _ hoff⟩⟩
  · exact s.regList_length (by omega)
  · exact s.regList_getElem? y (by omega)

/-- Settles O35: each load reads what its store left, and a store of at most 16 bytes raises no diagnostic. -/
theorem loadAfterStoreRestoresRegisters : Obligations.LoadAfterStoreRestoresRegisters := by
  refine fun x s v => ⟨fun h => ?_, fun hon => ?_⟩
  · obtain ⟨t, ht, hbytes, -⟩ := storeRegistersWritesTheBlock x s h
    obtain ⟨u, hu, hregs, -⟩ := loadRegistersReadsTheBlock x { t with i := s.i, v := v }
    refine ⟨t, u, ht, hu, fun y => (hregs y).trans ?_⟩
    split
    next hy => exact hbytes y hy
    next => rfl
  · obtain ⟨t, ht, hlen, hstored, hframe⟩ := ((flagStoreSaveAndLoad x s).1 hon).1
    have hstillOn := (congrArg Quirks.extendedInstructionSet (hframe .quirks (by decide))).trans hon
    obtain ⟨u, hu, hregs, herr, -⟩ := ((flagStoreSaveAndLoad x { t with v := v }).1 hstillOn).2
    have hshort : ¬16 < t.flagStore.length := by omega
    refine ⟨t, u, ht, hu, ?_, fun y => (hregs y).trans ?_⟩
    · exact (herr.trans (if_neg hshort)).trans (hframe .errors (by decide))
    · split
      next hy => rw [List.getD_eq_getElem?_getD, hstored y hy, Option.getD_some]
      next => rfl

/-- Settles O26: the operand fits in 12 bits. -/
theorem ldISetsI : Obligations.LdISetsI :=
  fun nnn s => ⟨s.setI nnn.toNat, rfl, toAddr_toNat_of_lt nnn.isLt, s.setI_frame _⟩

/-- Settles O27: `I` holds the sum in 12 bits, and no register is written. -/
theorem addIWrapsAtTwelveBits : Obligations.AddIWrapsAtTwelveBits :=
  fun _ s => ⟨_, rfl, toAddr_toNat _, s.setI_frame _⟩

/-- Settles O31: the block is the three digits. -/
theorem ldBStoresThreeDigits : Obligations.LdBStoresThreeDigits := fun x s h =>
  have hdigit {k : Nat} (hk : k < 3) := State.readByte_writeBytes_decimalDigits_toNat h.mem s.i.toNat (s.reg x) hk
  ⟨_, rfl, hdigit (k := 0) (by decide), hdigit (k := 1) (by decide), hdigit (k := 2) (by decide),
    (effect_bytes (.ldB x) h.mem).of_singleton, effect_frame (.ldB x) s⟩

end Sys2Proof.Machine
end

section
/-! Timers and keys (43_timers_keys.md): the level a register's key number selects, the byte a released key writes, and what the timer and key
instructions and the Step of a waiting CORE leave. -/

namespace Sys2Proof.Machine

namespace State

variable (s : State)

theorem lowNibble_toNat (x : Nibble) : (s.lowNibble x).toNat = (s.reg x).toNat % 16 := by
  rw [lowNibble, BitVec.toNat_setWidth]

/-- The entry of the level array that bits 3:0 of `V[X]` select (D27). -/
theorem key_lowNibble_of_getElem? {x : Nibble} {held : Bool} (h : s.keys[(s.reg x).toNat % 16]? = some held) :
    s.key (s.lowNibble x) = held := by
  rw [← s.lowNibble_toNat, Vector.getElem?_eq_getElem (s.lowNibble x).isLt] at h
  exact Option.some.inj h

/-- `TONE` is a function of `ST` alone (10_state.md R53, D39). -/
theorem tone_iff : s.tone = true ↔ s.st ≠ 0 := bne_iff_ne

/-- The register a released key is written to holds the key's number. -/
theorem reg_setReg_key_toNat (x k : Nibble) : ((s.setReg x (k.setWidth 8)).reg x).toNat = k.toNat := by
  rw [reg_setReg_self, BitVec.toNat_setWidth_of_le (by decide)]

end State

/-- Settles O9: the wait stands while `KREL` is none, and ends with one register write when a key is released. -/
theorem waitingStepTakesTheReleasedKey : Obligations.WaitingStepTakesTheReleasedKey := by
  refine fun s x hwait => ⟨fun hnone => ?_, fun k hk => ⟨(s.setReg x (k.setWidth 8)).setExec .running, ?_,
    s.reg_setReg_key_toNat x k, rfl, s.setReg_regs x _, (s.setReg_frame x _).comp (State.setExec_frame _ _) (List.Subset.refl _)⟩⟩
  · rw [step_of_awaitingKey hwait, State.awaitStep_of_none x hnone]
  · rw [step_of_awaitingKey hwait, State.awaitStep_of_some x hk]

/-- Settles O18: both forms are skips on the selected level, EXA1 on its complement. -/
theorem keySkipsTestTheLevelArray : Obligations.KeySkipsTestTheLevelArray := by
  intro x s held h
  have hkey := s.key_lowNibble_of_getElem? h
  exact ⟨skipsWhen_of_exec rfl (by rw [hkey]), skipsWhen_of_exec rfl (by rw [hkey, Bool.not_eq_true'])⟩

/-- Settles O36: each form is one write, and `TONE` follows `ST`. -/
theorem timerInstructionsMoveOneByte : Obligations.TimerInstructionsMoveOneByte := fun x s =>
  ⟨⟨_, rfl, s.reg_setReg_self x s.dt, s.setReg_regs x _, s.setReg_frame x _⟩,
    ⟨s.setDt (s.reg x), rfl, rfl, s.setDt_frame _⟩,
    ⟨s.setSt (s.reg x), rfl, rfl, State.tone_iff _, s.setSt_frame _⟩⟩

/-- Settles O37: the register write when `KREL` holds a key, the change of `EXEC` when it holds none. -/
theorem waitForKeyTakesOrWaits : Obligations.WaitForKeyTakesOrWaits := fun x s =>
  ⟨fun k hk => ⟨_, execLdVxK_of_some x hk, s.reg_setReg_key_toNat x k, s.setReg_regs x _, s.setReg_frame x _⟩,
    fun hnone => ⟨_, execLdVxK_of_none x hnone, rfl, s.setExec_frame _⟩⟩

end Sys2Proof.Machine
end

section
/-! The display (44_display.md): what a blanked screen, a scroll and a draw leave, a draw of no rows, and a draw repeated at the same position. -/

namespace Sys2Proof.Machine

/-! The flag byte as a truth value. -/

theorem flagByte_eq_zero_or_one (b : Bool) : flagByte b = 0 ∨ flagByte b = 1 := by cases b <;> decide

theorem flagByte_eq_one_iff (b : Bool) : flagByte b = 1 ↔ b = true := by cases b <;> decide

namespace State

variable (s : State) (x y : Nibble) (rows : Nat) (wide : Bool)

theorem reg_drawSprite_flag : (s.drawSprite x y rows wide).reg 0xF = flagByte (s.blitAt x y rows wide).2 :=
  State.reg_setReg_self _ _ _

theorem drawSprite_regs : SameRegsBut [0xF] s (s.drawSprite x y rows wide) :=
  fun _ hz => s.reg_drawSprite_of_ne x y rows wide (mt List.mem_singleton.2 hz)

/-- A sprite of no rows toggles nothing and collides with nothing (D18). -/
theorem drawSprite_zero_rows : s.drawSprite x y 0 wide = s.setFlag false := rfl

end State

/-- `i` draws at `(V[x], V[y])` the sprite of `rows` rows and `columns` columns at `I` whose bits are `bits`: DRW, one byte a row, or DRW16
with the extension, two bytes a row, big-endian (44_display.md R222, R223). -/
def DrawsAt (s : State) (x y n : Nibble) (i : Instr) (bits : Nat → Nat → Bool) (rows columns : Nat) : Prop :=
  (i = .drw x y n ∧ rows = n.toNat ∧ columns = 8 ∧
      bits = fun row col => (s.readByte (s.i.toNat + row)).getLsbD (7 - col)) ∨
    (i = .drw16 x y ∧ s.qcfg.extendedInstructionSet = true ∧ rows = 16 ∧ columns = 16 ∧
      bits = fun row col => (s.readByte (s.i.toNat + 2 * row) ++ s.readByte (s.i.toNat + 2 * row + 1)).getLsbD (15 - col))

section

variable {s t : State} {x y n : Nibble} {i : Instr} {bits : Nat → Nat → Bool} {rows columns : Nat}

/-- Either form is one `drawSprite` of the sprite described. -/
theorem DrawsAt.exec_eq (h : DrawsAt s x y n i bits rows columns) :
    ∃ wide, exec i s = .next (s.drawSprite x y rows wide) ∧ bits = s.spriteBit wide ∧ columns = State.spriteColumns wide := by
  obtain ⟨rfl, rfl, rfl, rfl⟩ | ⟨rfl, hon, rfl, rfl, rfl⟩ := h
  · exact ⟨false, rfl, rfl, rfl⟩
  · exact ⟨true, congrArg _ (if_pos hon), rfl, rfl⟩

/-- The sprite is read from memory at `I`, so it is the same after a change of the screen and the registers. -/
theorem DrawsAt.of_sameBut (h : DrawsAt s x y n i bits rows columns) (hst : SameBut [.screen, .registers] s t) :
    DrawsAt t x y n i bits rows columns := by
  have hbyte : ∀ a, t.readByte a = s.readByte a := hst .memory (by decide)
  have hi : t.i = s.i := hst .index (by decide)
  have hq : t.qcfg = s.qcfg := hst .quirks (by decide)
  simpa only [DrawsAt, hbyte, hi, hq] using h

theorem exec_drw16_of_off (x y : Nibble) (hoff : s.qcfg.extendedInstructionSet = false) :
    exec (.drw16 x y) s = .next (s.drawBase x y) := congrArg _ (if_neg (by simp [hoff]))

/-- An extension form that replaces the grid by one of the same shape whose pixels are `moved`. -/
theorem exists_next_of_exec_setFb {fb : Grid} {moved : Nat → Nat → Bool} (hon : s.qcfg.extendedInstructionSet = true)
    (he : exec i s = .next (s.whenExtended (s.setFb fb))) (hwf : fb.wf s.res = true)
    (hmoved : ∀ c r, c < s.res.width → r < s.res.height → fb.pixel c r = moved c r) :
    ∃ t, exec i s = .next t ∧ t.res = s.res ∧ t.fb.wf s.res = true ∧ SameBut [.screen] s t ∧
      ∀ c r, c < s.res.width → r < s.res.height → t.pixel c r = moved c r :=
  ⟨_, he.trans (next_whenExtended_on _ hon), rfl, hwf, s.setScreen_frame _ _, hmoved⟩

/-- An instruction that selects `res` and clears it. -/
theorem exists_next_of_exec_setMode {res : Resolution} (he : exec i s = .next (s.setMode res)) :
    ∃ t, exec i s = .next t ∧ t.res = res ∧ t.fb.length = res.height ∧ (∀ row ∈ t.fb, row.length = res.width) ∧
      t.fb.wf res = true ∧ (∀ c r, t.pixel c r = false) ∧ SameBut [.screen] s t :=
  have ⟨hlength, hwidth⟩ := Grid.wf_iff.1 (Grid.wf_blank (res := res))
  ⟨_, he, rfl, hlength, hwidth, Grid.wf_blank, Grid.pixel_blank, s.setScreen_frame _ _⟩

end

/-- Settles O40: the draw is one `drawSprite`, whose law says which pixels toggle and what the collision bit is. -/
theorem drawTogglesTheCoveredPixels : Obligations.DrawTogglesTheCoveredPixels := by
  intro x y n s i bits rows columns hinv (hdraw : DrawsAt s x y n i bits rows columns)
  obtain ⟨wide, he, rfl, rfl⟩ := hdraw.exec_eq
  obtain ⟨-, hpixel, -, hhit⟩ := s.drawSprite_spec hinv.fb x y rows wide
  refine ⟨_, he, hpixel, ?_, ?_, rfl, s.drawSprite_regs x y rows wide, s.drawSprite_frame x y rows wide⟩
  · rw [s.reg_drawSprite_flag]
    exact flagByte_eq_zero_or_one _
  · rw [s.reg_drawSprite_flag, flagByte_eq_one_iff]
    exact hhit

/-- Settles O41: the second draw toggles the pixels the first one did, so it collides where the first one set a pixel. -/
theorem drawingTwiceRestoresTheScreen : Obligations.DrawingTwiceRestoresTheScreen := by
  intro x y n s t u i bits rows columns covered hinv (hdraw : DrawsAt s x y n i bits rows columns) hcovered ht hx hy hu
  obtain ⟨t', ht', hfirst, -, -, hres, -, hframe⟩ := drawTogglesTheCoveredPixels x y n s i bits rows columns hinv hdraw
  obtain rfl := Host.Outcome.next.inj (ht'.symm.trans ht)
  have hinv' : t'.Inv := effect_of_exec ht ▸ hinv.effect i
  obtain ⟨u', hu', hsecond, -, hflag, -⟩ :=
    drawTogglesTheCoveredPixels x y n t' i bits rows columns hinv' (hdraw.of_sameBut hframe)
  obtain rfl := Host.Outcome.next.inj (hu'.symm.trans hu)
  simp only [hres, hx, hy] at hsecond hflag
  have hvf : u'.reg 0xF = 1 ↔ ∃ c r, covered c r = true ∧ s.pixel c r = false := by
    rw [hflag, hcovered]
    refine exists_congr fun c => exists_congr fun r => and_congr_right fun hc => ?_
    rw [hfirst, hc, Bool.xor_true, Bool.not_eq_true']
  refine ⟨fun c r => ?_, hvf, fun hclear => hvf.trans ?_⟩
  · rw [hsecond, hfirst, Bool.xor_assoc, Bool.xor_self, Bool.xor_false]
  · exact exists_congr fun c => exists_congr fun r => and_iff_left_of_imp (hclear c r)

/-- Settles O43: each scroll's grid, pixel by pixel. -/
theorem scrollsMoveEveryPixel : Obligations.ScrollsMoveEveryPixel := by
  refine fun n s hon => ⟨exists_next_of_exec_setFb hon rfl (Grid.wf_scrollDown _) fun c r hc hr => ?_,
    exists_next_of_exec_setFb hon rfl (Grid.wf_scrollUp _) fun c r hc hr => ?_,
    exists_next_of_exec_setFb hon rfl Grid.wf_scrollRight fun c r hc hr => ?_,
    exists_next_of_exec_setFb hon rfl Grid.wf_scrollLeft fun c r hc hr => ?_⟩
  · exact (Grid.pixel_scrollDown _ hc hr).trans (Bool.if_false_right _ _)
  · exact (Grid.pixel_scrollUp _ hc hr).trans (Bool.if_false_right _ _)
  · exact (Grid.pixel_scrollRight hc hr).trans (Bool.if_false_right _ _)
  · exact (Grid.pixel_scrollLeft hc hr).trans (Bool.if_false_right _ _)

/-- Settles O44: LOW and HIGH, each with its shape. -/
theorem modeSwitchesSelectAndClear : Obligations.ModeSwitchesSelectAndClear := fun _ hon =>
  ⟨exists_next_of_exec_setMode (next_whenExtended_on _ hon), exists_next_of_exec_setMode (next_whenExtended_on _ hon)⟩

/-- Settles O39: the blank grid at the current resolution. -/
theorem clsClearsEveryPixel : Obligations.ClsClearsEveryPixel :=
  fun s => ⟨s.clearScreen, rfl, Grid.pixel_blank, rfl, Grid.wf_blank, s.setScreen_frame _ _⟩

/-- Settles O42: each value of the open parameter; a draw of no rows is one write of VF. -/
theorem dxy0WithoutTheExtension : Obligations.Dxy0WithoutTheExtension := by
  refine fun x y s hoff => ⟨fun hnoop => ?_, fun hzero => ⟨s.setFlag false, ?_, s.reg_setReg_self _ _, s.setReg_regs _ _,
    s.setReg_frame _ _⟩⟩
  · rw [exec_drw16_of_off x y hoff, s.drawBase_of_noop x y hnoop]
  · rw [exec_drw16_of_off x y hoff, s.drawBase_of_zeroRows x y hzero, s.drawSprite_zero_rows]

end Sys2Proof.Machine
end

section
/-! `EXEC` under the host operations (10_state.md R39), and why a halted CORE stays halted (45_system.md R250, D24). -/

namespace Sys2Proof.Machine

/-- Only a Step and the two resets write `EXEC`: every other operation leaves it out of its frame. -/
theorem operate_keeps_execState {s t : State} {op : Operation} (hs : op ≠ .step) (hp : op ≠ .resetProgram) (ha : op ≠ .resetAll)
    (h : operate s op = .next t) : t.execState = s.execState := by
  cases op with
  | step => exact absurd rfl hs
  | resetProgram => exact absurd rfl hp
  | resetAll => exact absurd rfl ha
  | load bytes =>
    obtain rfl := Host.Outcome.next.inj h
    exact s.load_frame bytes .dispatcher (by decide)
  | tick | input _ _ | setPreset _ | setQuirk _ _ | writeFlagStore _ | readFlagStore | readFb | readRes | readTone | readErr
  | readExec | readLoaded =>
    obtain rfl := Host.Outcome.next.inj h
    rfl

/-- Settles O45: a halted Step is the identity, and no other operation but a reset writes `EXEC`. -/
theorem exitHaltsUntilReset : Obligations.ExitHaltsUntilReset := by
  refine ⟨fun s hon => ⟨_, next_whenExtended_on _ hon, s.setExec_execState _, s.setExec_frame _⟩, fun _ => step_of_halted,
    fun s t op hhalted hp ha h => ?_⟩
  by_cases hs : op = .step
  · subst hs
    obtain rfl := Host.Outcome.next.inj ((step_of_halted hhalted).symm.trans h)
    exact hhalted
  · exact (operate_keeps_execState hs hp ha h).trans hhalted

end Sys2Proof.Machine
end

section
/-! Ticks (60_exceptions.md R272; 70_reset_and_hazards.md R302): what one does to each timer, and what a run of them adds up to. -/

namespace Sys2Proof.Machine

/-- One less than a byte, with the floor at 0, is still a byte: writing it back loses nothing. -/
theorem toNat_ofNat_sub_one (b : Byte) : (BitVec.ofNat 8 (b.toNat - 1)).toNat = b.toNat - 1 := by
  rw [BitVec.toNat_ofNat, Nat.mod_eq_of_lt (Nat.lt_of_le_of_lt (Nat.sub_le _ _) b.isLt)]

namespace State

variable (s : State)

theorem tick_dt_toNat : s.tick.dt.toNat = s.dt.toNat - 1 := toNat_ofNat_sub_one s.dt

theorem tick_st_toNat : s.tick.st.toNat = s.st.toNat - 1 := toNat_ofNat_sub_one s.st

theorem tick_frame : SameBut [.delayTimer, .soundTimer] s s.tick :=
  (s.setDt_frame _).comp (State.setSt_frame _ _) (List.Subset.refl _)

end State

/-- A run that begins with a Tick: no `EXEC` state is looked at (D40). -/
theorem operateAll_tick_cons (ops : List Operation) (s : State) : operateAll (.tick :: ops) s = operateAll ops s.tick := rfl

/-- Any number of Ticks takes that number from each timer, by induction on the number. -/
theorem operateAll_replicate_tick (n : Nat) (s : State) :
    ∃ t, operateAll (List.replicate n .tick) s = .next t ∧ t.dt.toNat = s.dt.toNat - n ∧ t.st.toNat = s.st.toNat - n ∧
      SameBut [.delayTimer, .soundTimer] s t := by
  induction n generalizing s with
  | zero => exact ⟨s, rfl, rfl, rfl, SameBut.refl _ s⟩
  | succ n ih =>
    obtain ⟨t, ht, hdt, hst, hframe⟩ := ih s.tick
    refine ⟨t, ?_, ?_, ?_, s.tick_frame.trans hframe⟩
    · rw [List.replicate_succ, operateAll_tick_cons, ht]
    · rw [hdt, s.tick_dt_toNat, Nat.sub_sub, Nat.add_comm]
    · rw [hst, s.tick_st_toNat, Nat.sub_sub, Nat.add_comm]

/-- Settles O38: the rate of R302, and the law of any number of Ticks. -/
theorem ticksOfASecondTakeSixty : Obligations.TicksOfASecondTakeSixty := ⟨rfl, operateAll_replicate_tick⟩

end Sys2Proof.Machine
end

section
/-! The two resets (70_reset_and_hazards.md R290 to R292): the state right after reset, piece by piece, and what each of them keeps. -/

namespace Sys2Proof

theorem Params.valid_atReset : Params.atReset.Valid where
  stackCap := Nat.le_refl 16
  hiFontNonempty := by simp [Params.atReset]
  hiFontShort := by simp [Params.atReset]
  cpuHz := by decide

namespace Machine

/-- The reset contents of memory: the 80 bytes of `LO_FONT` at the font base and 0 elsewhere (R292; 20_memory.md R67). -/
theorem resetByte_eq_ite (base : FontBase) (a : Nat) :
    resetByte base a = if base.address ≤ a ∧ a < base.address + 80 then loFont.getD (a - base.address) 0 else 0 := by
  have hlen : loFont.length = 80 := rfl
  by_cases hfont : base.address ≤ a ∧ a < base.address + 80
  · rw [if_pos hfont, resetByte, if_pos hfont.1]
  · rw [if_neg hfont, resetByte]
    split
    · exact List.getD_eq_default _ _ (by omega)
    · rfl

namespace State

theorem reg_initial (p : Params) (x : Nibble) : (State.initial p).reg x = 0 := Vector.getElem_replicate x.isLt

theorem key_initial (p : Params) (k : Nibble) : (State.initial p).key k = false := Vector.getElem_replicate k.isLt

theorem eq_zero_of_mem_stk_initial {p : Params} {a : Word} (h : a ∈ (State.initial p).stk) : a = 0 := List.eq_of_mem_replicate h

theorem stk_length_initial (p : Params) : (State.initial p).stk.length = p.stackCap := List.length_replicate

theorem Inv.initial {p : Params} (hp : p.Valid) : (State.initial p).Inv where
  pc := show (0x200 : Word).toNat < 0x1000 by decide
  i := show (0x200 : Word).toNat < 0x1000 by decide
  sp := Nat.zero_le _
  stk := stk_length_initial p
  returnAddresses := fun a h => by rw [eq_zero_of_mem_stk_initial h]; decide
  fb := Grid.wf_blank
  err := BitVec.zero_and
  mem := rfl
  params := hp

/-- `ResetProgram` meets the invariant as soon as the parameters, which it keeps, are in range. -/
theorem Inv.resetProgram {s : State} (hp : s.params.Valid) : s.resetProgram.Inv :=
  have h := Inv.initial hp
  ⟨h.pc, h.i, h.sp, h.stk, h.returnAddresses, h.fb, h.err, h.mem, h.params⟩

/-- The two resets differ in `QCFG` only (R291). -/
theorem resetProgram_resetAll_frame (s : State) : SameBut [.quirks] s.resetProgram s.resetAll :=
  s.resetProgram.setQcfg_frame (Quirks.ofPreset defaultPreset)

/-- `ResetAll` is the state at VM creation, but for the flag store and the draw count (logs 9, 23). -/
theorem resetAll_eq (s : State) : s.resetAll = { State.initial s.params with flagStore := s.flagStore, draws := s.draws } := rfl

end State

/-- Settles O57: the invariant of the state after reset for parameters in range, and the values of `State.reset` are. -/
theorem resetMeetsTheInvariant : Obligations.ResetMeetsTheInvariant :=
  ⟨fun _ hp => .initial hp, .initial Params.valid_atReset⟩

/-- Settles O51: `ResetProgram` is the state right after reset in every piece it does not keep. -/
theorem resetProgramGivesTheCanonicalState : Obligations.ResetProgramGivesTheCanonicalState := by
  intro s
  have hreg := State.reg_initial s.params
  have hkey := State.key_initial s.params
  have hlen := State.stk_length_initial s.params
  have hstk : ∀ a ∈ s.resetProgram.stk, a = 0 := fun _ => State.eq_zero_of_mem_stk_initial (p := s.params)
  have hpix : ∀ c r, s.resetProgram.pixel c r = false := Grid.pixel_blank
  have hmem : ∀ a, a < 0x1000 → s.resetProgram.readByte a = _ := fun a ha =>
    (State.readByte_initial s.params ha).trans (resetByte_eq_ite s.params.fontBase a)
  exact ⟨s.resetProgram, rfl, hreg, rfl, rfl, rfl, hlen, hstk, rfl, rfl, hkey, rfl, rfl, Grid.wf_blank, hpix, rfl, rfl, rfl, rfl,
    hmem, rfl, rfl, rfl⟩

/-- Settles O52: the preset is the one write between the two resets, and its register view is 0x08. -/
theorem resetAllAlsoSelectsTheChip8Preset : Obligations.ResetAllAlsoSelectsTheChip8Preset := fun s =>
  ⟨s.resetProgram, s.resetAll, rfl, rfl, s.resetProgram_resetAll_frame, toByte_chip8, s.resetAll_eq⟩

end Machine

end Sys2Proof
end

section
/-! Every run of host operations (70_reset_and_hazards.md R300, R301): what one operation does, and the induction over the run. -/

namespace Sys2Proof.Machine

theorem State.Inv.load {s : State} (h : s.Inv) (bytes : List Byte) : (s.load bytes).Inv := by
  rw [State.load]; split
  · exact (h.writeBytes _ _).setLoaded _
  · exact h

/-- A Step completes in every state (60_exceptions.md R260, R270). -/
theorem exists_next_of_step (s : State) : ∃ t, step s = .next t := by
  cases he : s.execState with
  | halted => exact ⟨_, step_of_halted he⟩
  | awaitingKey x => exact ⟨_, step_of_awaitingKey he⟩
  | running =>
    cases hd : decodeWord s.params.scrollUp s.fetchedWord with
    | ok i => exact ⟨_, step_of_decoded he hd⟩
    | error r => exact ⟨_, step_of_unknown he hd⟩

/-- One operation of a run: it completes, keeps the parameters, and keeps the invariant. -/
theorem exists_next_of_operate (op : Operation) (s : State) :
    ∃ t, operate s op = .next t ∧ t.params = s.params ∧ (s.Inv → t.Inv) := by
  cases op with
  | step =>
    obtain ⟨t, ht⟩ := exists_next_of_step s
    exact ⟨t, ht, step_frame ht .parameters (by decide), fun h => stepKeepsTheInvariant s t h ht⟩
  | tick => exact ⟨_, rfl, rfl, fun h => (h.setDt _).setSt _⟩
  | input levels released => exact ⟨_, rfl, rfl, fun h => h.setKeypad levels released⟩
  | load bytes => exact ⟨_, rfl, s.load_frame bytes .parameters (by decide), fun h => h.load bytes⟩
  | resetProgram => exact ⟨_, rfl, rfl, fun h => .resetProgram h.params⟩
  | resetAll => exact ⟨_, rfl, rfl, fun h => (State.Inv.resetProgram h.params).setQcfg _⟩
  | setPreset _ | setQuirk _ _ => exact ⟨_, rfl, rfl, fun h => h.setQcfg _⟩
  | writeFlagStore bytes => exact ⟨_, rfl, rfl, fun h => h.setFlagStore bytes⟩
  | readFlagStore | readFb | readRes | readTone | readErr | readExec | readLoaded => exact ⟨s, rfl, rfl, id⟩

theorem operateAll_cons_of_next {op : Operation} {s t : State} (h : operate s op = .next t) (ops : List Operation) :
    operateAll (op :: ops) s = operateAll ops t := by
  rw [operateAll, h]

/-- Settles O59, by induction on the list of operations, for every first state. -/
theorem everyRunCompletesAndKeepsTheInvariant : Obligations.EveryRunCompletesAndKeepsTheInvariant := by
  intro ops
  induction ops with
  | nil => exact fun s => ⟨s, rfl, rfl, id⟩
  | cons op ops ih =>
    intro s
    obtain ⟨t, ht, htp, hti⟩ := exists_next_of_operate op s
    obtain ⟨u, hu, hup, hui⟩ := ih t
    exact ⟨u, (operateAll_cons_of_next ht ops).trans hu, hup.trans htp, hui ∘ hti⟩

end Sys2Proof.Machine
end
